-- ==== Sys2Proof/Word.lean ====
section
/-! DEFINITION. The words of the LS-28: bytes of the Management Line, 64-bit Guard Link records,
the wrapping interval stamp and round number, the port numbers, and what the part
samples at the end of a character. -/

namespace Sys2Proof

/-- One Management Line character or report byte (R152, ch. 12). -/
abbrev Byte := BitVec 8

/-- The interval stamp: it wraps from its 32-bit maximum to 0 (00_scope "time", R18). -/
abbrev Stamp := BitVec 32

/-- The round number: 12 bits, wrapping from 4095 to 0 (00_scope "rounds", R40). -/
abbrev Round := BitVec 12

/-- The 4-byte guard identity (R36). -/
abbrev Identity := BitVec 32

/-- One Guard Link record: 64 bits, bit 63 sent first (R105, R182). -/
abbrev Record := BitVec 64

/-- The five-bit port field of a Guard Link record: 0 to 31 (R107, R182). -/
abbrev PortField := BitVec 5

/-- A port number, 0 to 27 (00_scope "ports"). -/
abbrev Port := Fin 28

/-- What the part samples as a Management Line character ends: whether its stop bit is low, which is a framing fault
(R152), and the level of KEY (R178, log entry 4). -/
structure CharacterEnd where
  framingFault : Bool
  key : Bool
  deriving DecidableEq, Repr

end Sys2Proof
end

