-- ==== Sys2Proof/Config.lean ====
section
/-! DEFINITION. What every LS-28 fixes: table sizes, limits, the fixed times and the parameter ranges of
the summary table of ch. 12.  The spec leaves no result of a command open, so there is no free value
here; the one constant of a single part, its guard identity, is read-only memory and stands in State. -/

namespace Sys2Proof.Config

/-- Largest value of a saturating 16-bit count ("Counters said to saturate", 00_scope; R25, R119). -/
def countMax : Nat := 65535

/-- Records the report queue holds (R166). -/
def queueMax : Nat := 64

/-- Level at which an acknowledged overflow ends (R171) and from which samples are skipped (R173). -/
def halfQueue : Nat := 32

/-- Largest strike count (R77, R95). -/
def strikeMax : Nat := 6

/-- Largest count of a loop evidence entry (R57) and of a listen count (R77). -/
def cleanMax : Nat := 7

/-- Fault run at which the link becomes UNRESPONSIVE (R116, R133). -/
def faultRunMax : Nat := 3

/-- The longest round of REST, in intervals (R39). -/
def restRoundMax : Nat := 2500

/-- E never exceeds 256 × 65,535 (R15, R28). -/
def averageMax : Nat := 16776960

/-- Longest BODY of a management frame (R153, ch. 12). -/
def bodyMax : Nat := 200

/-- SYNC, the byte that opens a management frame (ch. 09 "frames"). -/
def syncByte : Byte := 0xC3

/-- tACK, tGAP, tLOAD and tWR in milliseconds (ch. 12): fixed.  The model takes each expiry as a command
and does not count the milliseconds (log entry 2). -/
def tACK : Nat := 1
@[inherit_doc tACK] def tGAP : Nat := 5
@[inherit_doc tACK] def tLOAD : Nat := 2
@[inherit_doc tACK] def tWR : Nat := 20

end Sys2Proof.Config
end

