-- ==== Sys2Proof/Machine/Types.lean ====
section
/-! DEFINITION. The data types of the machine's state: roles, guard states, switch states, records,
table entries, policies and the blocks' items.  Plain data only. -/

namespace Sys2Proof.Machine

/-- The four roles (R2). -/
inductive Role | access | teacher | uplink | unused
  deriving DecidableEq, Repr

/-- The forwarding states of a port in the switch chip (R79).  UNKNOWN, which only a confirmed state can
be, is the `none` of an `Option SwitchState` (R122). -/
inductive SwitchState | opened | floodcut | hold
  deriving DecidableEq, Repr

/-- The override of a port: NONE, OPEN or SHUT (R102). -/
inductive Override | noOverride | openPort | shut
  deriving DecidableEq, Repr

/-- The seven guard states (R78). -/
inductive GuardState | down | listen | forward | suspect | throttle | blocked | disabled
  deriving DecidableEq, Repr

/-- The window mark (R15, R21). -/
inductive Mark | idle | awaited | taken
  deriving DecidableEq, Repr

/-- The operating modes (R139). -/
inductive Mode | start | autonomous | managed | rest
  deriving DecidableEq, Repr

/-- The last reset cause (R140). -/
inductive ResetCause | power | pin | request
  deriving DecidableEq, Repr

/-- Validity of a settings area as STAT shows it (R142, R157). -/
inductive Validity | valid | invalid | notLoaded
  deriving DecidableEq, Repr

/-- The two settings areas (R176). -/
inductive AreaName | policy | roles
  deriving DecidableEq, Repr

/-- The two tables the Table Check tests (R55). -/
inductive TableName | opt | letTable
  deriving DecidableEq, Repr

/-- One meter row of the policy: A, Bmax, R, Ttrip, Tclear and nTHR (R16). -/
structure MeterRow where
  a : Nat
  bmax : Nat
  r : Nat
  ttrip : Nat
  tclear : Nat
  nthr : Nat
  deriving DecidableEq, Repr

/-- The runtime policy, and the contents of the Policy area (R139, R176).  tIVL is in milliseconds. -/
structure Policy where
  bootManaged : Bool
  tIVL : Nat
  access : MeterRow
  teacher : MeterRow
  uplink : MeterRow
  tRND : Nat
  tEXP : Nat
  nCONF : Nat
  nLSN : Nat
  tHOLD0 : Nat
  tDECAY : Nat
  tHOST : Nat
  qatt : Nat
  deriving DecidableEq, Repr

/-- One port record: the fields of all its owners (R1, R15, R77, R122).  The three `…Due` marks are the
model's own: a count has come to its end at the interval event and the step that judges it
(THROTTLE_HOLD_EXPIRY, HOLD_EXPIRY, STRIKE_DECAY) has not been taken yet (log entry 5). -/
structure PortRec where
  role : Role
  present : Bool
  linkUp : Bool
  override : Override
  guard : GuardState
  strike : Nat
  hold : Nat
  listen : Nat
  throttleHold : Nat
  decay : Nat
  lastF : Nat
  avgE : Nat
  creditB : Nat
  trip : Bool
  mark : Mark
  wanted : SwitchState
  confirmed : Option SwitchState
  pendingFlag : Bool
  inFlight : Option SwitchState
  throttleDue : Bool
  holdDue : Bool
  decayDue : Bool
  deriving DecidableEq, Repr

/-- The phase of an outstanding probe; only an OUT entry has an expiry stamp (R43). -/
inductive OptPhase
  | sending
  | out (expiry : Stamp)
  deriving DecidableEq, Repr

/-- One entry of the Outstanding Probe Table (R43).  `caught` lists the caught set in ascending order.
`parityOk` says whether the stored parity agrees with the check over the other fields (log entry 6). -/
structure OptEntry where
  round : Round
  egress : Port
  phase : OptPhase
  caught : List Port
  parityOk : Bool
  deriving DecidableEq, Repr

/-- One entry of the Loop Evidence Table (R57); `parityOk` as for an OPT entry. -/
structure LetEntry where
  egress : Port
  ingress : Port
  count : Nat
  firstSeen : Stamp
  victim : Option Port
  confirmed : Bool
  parityOk : Bool
  deriving DecidableEq, Repr

/-- A captured trap (R55). -/
structure TrapRecord where
  table : TableName
  slot : Nat
  stamp : Stamp
  overflow : Bool
  deriving DecidableEq, Repr

/-- Causes of a STATE record, in the code order of ch. 12 (R80). -/
inductive StateCause
  | linkUp | linkDown | listenDone | trip | clear | confirm | release | evidence | evidenceGone
  | role | absent
  deriving DecidableEq, Repr

/-- Kinds of wake event (R150, R151). -/
inductive WakeKind | linkUp | caught | trip
  deriving DecidableEq, Repr

/-- Causes of a MODE record; WAKE carries the kind and the port of the wake event (R151). -/
inductive ModeCause
  | startDone
  | request
  | hostLost
  | wake (kind : WakeKind) (port : Port)
  deriving DecidableEq, Repr

/-- The two commands of the Guard Link (R110). -/
inductive CommandKind | setport | inject
  deriving DecidableEq, Repr

/-- The four inbound record kinds (R107). -/
inductive InboundKind | digest | catchRecord | link | ack
  deriving DecidableEq, Repr

/-- Result of a settings write (R177, R178). -/
inductive StoredResult | done | abandoned | invalidAfterReset
  deriving DecidableEq, Repr

/-- Reason of a WATCHEND record (R173, R175). -/
inductive WatchEndReason | complete | stopped
  deriving DecidableEq, Repr

/-- The kinds of report record with their port and kind fields (R167). -/
inductive ReportBody
  | state (port : Port) (before after : GuardState) (cause : StateCause)
  | loop (victim egress ingress : Port) (count strike : Nat)
  | ploop (egress ingress : Port) (count : Nat)
  | linkFaultDown (port : Port) (kind : CommandKind)
  | linkFaultUp (port : PortField) (kind : InboundKind)
  | mode (before after : Mode) (cause : ModeCause)
  | trap (table : TableName) (slot : Nat) (stamp : Stamp)
  | stored (area : AreaName) (result : StoredResult)
  | gap (lost : Nat)
  | sample (port : Port) (f e b : Nat) (trip : Bool)
  | watchEnd (port : Port) (reason : WatchEndReason) (skipped : Nat)
  deriving DecidableEq, Repr

/-- A report record: the stamp of its append, and its kind with the fields (R167). -/
structure Report where
  stamp : Stamp
  body : ReportBody
  deriving DecidableEq, Repr

/-- An outbound Guard Link record (R110).  An INJECT carries its port twice (R182). -/
inductive OutRecord
  | strobe (stamp : Byte)
  | setport (port : Port) (state : SwitchState)
  | inject (port : Port) (round : Round) (identity : Identity)
  deriving DecidableEq, Repr

/-- The Guard Link receiver: HUNT, or RECEIVING with the data bits taken so far, first bit first (R106). -/
inductive LinkRx
  | hunt
  | receiving (bits : List Bool)
  deriving DecidableEq, Repr

/-- What the receiver makes of clocks on GLFI and GLDI: its state after them, the records truncated and the records
completed in them, in order (R106). -/
structure RxResult where
  rx : LinkRx
  truncated : Nat
  records : List Record
  deriving DecidableEq, Repr

/-- What the interface keeps of the outstanding command: its kind, for an INJECT its round (R112), for a
SETPORT the rotating pointer before its grant (R127). -/
inductive OutstandingKind
  | setport (previousPointer : Port)
  | inject (round : Round)
  deriving DecidableEq, Repr

/-- The outstanding command (R112).  `timerRunning` is set from its last bit on: then the ACK timer runs. -/
structure Outstanding where
  kind : OutstandingKind
  port : Port
  timerRunning : Bool
  deriving DecidableEq, Repr

/-- The link state (R116). -/
inductive LinkState | up | unresponsive
  deriving DecidableEq, Repr

/-- Results of a request (R156). -/
inductive Result | ok | busy | state | locked | range | unknown | ended
  deriving DecidableEq, Repr

/-- A REJECT and its reason; a BUSY one also carries the kind byte it answers (R155). -/
inductive Reject
  | trunc
  | check
  | busy (kind : Byte)
  deriving DecidableEq, Repr

/-- The Management Line receiver (R153) with the part of the frame kept so far. -/
inductive LineRx
  | hunt
  | len
  | body (len : Nat) (got : List Byte)
  | check (body : List Byte) (first : Option Byte)
  deriving DecidableEq, Repr

/-- A complete management frame, without SYNC; LEN is the number of BODY bytes (ch. 12). -/
structure Frame where
  body : List Byte
  check : BitVec 16
  deriving DecidableEq, Repr

/-- The reply line (R155).  OWED keeps the BODY of the request that was taken, within the step that carries it out
(log entry 3), SENDING the BODY of the reply frame on MTXD. -/
inductive ReplyLine
  | idle
  | owed (request : List Byte)
  | sending (reply : List Byte)
  deriving DecidableEq, Repr

/-- The active watch (R172): `remaining` is none for an endless watch, `slot` the extension slot. -/
structure Watch where
  port : Port
  remaining : Option Nat
  decimation : Nat
  counter : Nat
  slot : Option Nat
  skipped : Nat
  deriving DecidableEq, Repr

/-- A settings area: contents, the check stored with them, and whether the cells were written whole.  A
write cut off leaves an area partly written (R177, R179). -/
structure Area (α : Type) where
  contents : α
  check : BitVec 16
  whole : Bool
  deriving DecidableEq, Repr

/-- The write in flight: the area it names, the write buffer, and the read image of the old area (R177). -/
inductive StoreWrite
  | policy (buffer : Policy) (image : Area Policy)
  | roles (buffer : Vector Role 28) (image : Area (Vector Role 28))
  deriving DecidableEq, Repr

/-- The Interval Clock's items (R18, R38, R39).  `length` is the length in ms of the interval in progress;
`roundDue` is the model's own mark that the timer has reached the effective length (log entry 5). -/
structure IntervalClock where
  stamp : Stamp
  length : Option Nat
  round : Option Round
  timer : Nat
  base : Option Nat
  roundDue : Bool
  deriving DecidableEq, Repr

/-- The Flood Meter's items for the whole part (R21, R25). -/
structure FloodMeter where
  takingStamp : Option Byte
  lateOrDuplicate : Nat
  missing : Nat
  deriving DecidableEq, Repr

/-- The Probe Unit's items (R38). -/
structure ProbeUnit where
  list : List Port
  opt : Vector (Option OptEntry) 32
  skipped : Nat
  foreign : Nat
  malformed : Nat
  lateCatch : Nat
  deriving DecidableEq, Repr

/-- The Evidence Unit's items (R57, R58).  `sweepOwed` is set while an operation that found a failing
entry runs; the victim sweep at its end clears it (R73). -/
structure EvidenceUnit where
  slots : Vector (Option LetEntry) 16
  evictions : Nat
  sweepOwed : Bool
  deriving DecidableEq, Repr

/-- The Command Arbiter's items for the whole part (R122). -/
structure Arbiter where
  pointer : Port
  consecutive : Nat
  faultRun : Nat
  pacing : Bool
  allowance : Bool
  deriving DecidableEq, Repr

/-- The Guard Link Interface (R106, R110, R112, R116, R119). -/
structure GuardLink where
  rx : LinkRx
  sending : Option OutRecord
  waiting : Option OutRecord
  outstanding : Option Outstanding
  state : LinkState
  framingErrors : Nat
  unknownRecords : Nat
  badPorts : Nat
  strayAcks : Nat
  ackTimeouts : Nat
  deriving DecidableEq, Repr

/-- The Management Line Interface (R152 to R155).  `fast` is the rate latched from BAUD; `complete` is a complete
frame on its way to R154's judgement, within one step (log entry 3); `resetOwed` says that the reply being sent is
the OK of a RESET (R140). -/
structure ManagementLine where
  fast : Bool
  rx : LineRx
  complete : Option Frame
  line : ReplyLine
  reject : Option Reject
  resetOwed : Bool
  badLength : Nat
  truncated : Nat
  checkFails : Nat
  busy : Nat
  deriving DecidableEq, Repr

/-- The Mode Unit (R139).  `loading` holds from a reset to the end of the Settings Store load (R142);
`hostLostDue` is the model's own mark that the count has reached tHOST (log entry 5). -/
structure ModeUnit where
  mode : Mode
  hostLost : Nat
  hostLostDue : Bool
  resetCause : ResetCause
  policy : Policy
  sweep : List Port
  loading : Bool
  deriving DecidableEq, Repr

/-- The Report Unit (R166, R172): the level is the length of the queue. -/
structure ReportUnit where
  queue : List Report
  overflow : Bool
  lost : Nat
  acknowledged : Bool
  watch : Option Watch
  deriving DecidableEq, Repr

/-- The Settings Store (R176 to R180). -/
structure SettingsStore where
  policyArea : Area Policy
  roleArea : Area (Vector Role 28)
  policyValidity : Validity
  roleValidity : Validity
  write : Option StoreWrite
  deriving DecidableEq, Repr

end Sys2Proof.Machine
end

