-- ==== Sys2Proof/Machine/Operands.lean ====
section
/-! DEFINITION. The operand forms: byte order, codes of the code table, report record and Guard Link
layouts, the CRC-16, the SETP parameter identifiers with their ranges, and the port field (ch. 12, R181,
R182, R154, R161). -/

namespace Sys2Proof.Machine

/-! ### Byte order -/

/-- `n` bytes of `v`, most significant byte first (00_scope "byte order"). -/
def bytesOf (n v : Nat) : List Byte :=
  match n with
  | 0 => []
  | k + 1 => BitVec.ofNat 8 (v / 256 ^ k) :: bytesOf k v

/-- The number that bytes spell, most significant byte first (00_scope "byte order"). -/
def natOf (bs : List Byte) : Nat := bs.foldl (fun n b => n * 256 + b.toNat) 0

/-- A flag as a byte: 0 clear, no, down or low; 1 set, yes, up or high (ch. 12 code table). -/
def flagByte (b : Bool) : Byte := if b then 1 else 0

/-- All ports in ascending order. -/
def allPorts : List Port := List.finRange 28

/-- The port a five-bit port field names, when it is 0 to 27 (R108). -/
def portOf (f : PortField) : Option Port :=
  if h : f.toNat < 28 then some ⟨f.toNat, h⟩ else none

/-- The port a byte of a request names, when it is 0 to 27 (R156 step 3). -/
def portOfByte (b : Byte) : Option Port :=
  if h : b.toNat < 28 then some ⟨b.toNat, h⟩ else none

/-- A port as one byte. -/
def portByte (p : Port) : Byte := BitVec.ofNat 8 p.val

/-! ### The CRC-16 of R154: polynomial 0x1021, preset 0xFFFF, most significant bit first -/

/-- One bit step of the CRC register. -/
def crcBit (c : BitVec 16) : BitVec 16 :=
  if c.msb then (c <<< 1) ^^^ 0x1021 else c <<< 1

/-- One byte into the CRC register. -/
def crcByte (c : BitVec 16) (b : Byte) : BitVec 16 :=
  let x := c ^^^ (b.setWidth 16 <<< 8)
  crcBit (crcBit (crcBit (crcBit (crcBit (crcBit (crcBit (crcBit x)))))))

/-- The CRC-16 of a run of bytes. -/
def crc16 (bs : List Byte) : BitVec 16 := bs.foldl crcByte 0xFFFF

/-- The check of a frame: the CRC-16 of its LEN byte and its BODY (R154). -/
def frameCheck (body : List Byte) : BitVec 16 := crc16 (BitVec.ofNat 8 body.length :: body)

/-- The frame that carries a BODY with the right check. -/
def goodFrame (body : List Byte) : Frame := ⟨body, frameCheck body⟩

/-- The characters of a frame on MTXD or MRXD: SYNC, LEN, BODY, CHECK high byte first (ch. 12). -/
def frameBytes (body : List Byte) : List Byte :=
  Config.syncByte :: BitVec.ofNat 8 body.length :: body ++ bytesOf 2 (frameCheck body).toNat

/-- A character on a Management Line wire, bit by bit: the start bit (low), 8 data bits least significant first,
the stop bit (high) (R152). -/
def charBits (b : Byte) : List Bool := false :: (List.range 8).map (fun k => b.getLsbD k) ++ [true]

/-- The character that ten sampled bits are, and whether it has a framing fault: its stop bit is low (R152).  None
unless a start bit opens them. -/
def charOfBits : List Bool → Option (Byte × Bool)
  | [false, b0, b1, b2, b3, b4, b5, b6, b7, stop] =>
    some (BitVec.ofBoolListLE [b0, b1, b2, b3, b4, b5, b6, b7], !stop)
  | _ => none

/-! ### Codes (ch. 12) -/

def Role.code : Role → Byte
  | .access => 0
  | .teacher => 1
  | .uplink => 2
  | .unused => 3

def Role.ofCode (b : Byte) : Option Role :=
  if b = 0 then some .access
  else if b = 1 then some .teacher
  else if b = 2 then some .uplink
  else if b = 3 then some .unused
  else none

def Mode.code : Mode → Byte
  | .start => 0
  | .autonomous => 1
  | .managed => 2
  | .rest => 3

/-- The mode a MODE request may name as target; START and the unnamed codes are no target (R146, R160). -/
def Mode.ofTarget (b : Byte) : Option Mode :=
  if b = 1 then some .autonomous
  else if b = 2 then some .managed
  else if b = 3 then some .rest
  else none

def Override.code : Override → Byte
  | .noOverride => 0
  | .openPort => 1
  | .shut => 2

def Override.ofCode (b : Byte) : Option Override :=
  if b = 0 then some .noOverride
  else if b = 1 then some .openPort
  else if b = 2 then some .shut
  else none

def AreaName.code : AreaName → Byte
  | .policy => 0
  | .roles => 1

def AreaName.ofCode (b : Byte) : Option AreaName :=
  if b = 0 then some .policy else if b = 1 then some .roles else none

def GuardState.code : GuardState → Byte
  | .down => 0
  | .listen => 1
  | .forward => 2
  | .suspect => 3
  | .throttle => 4
  | .blocked => 5
  | .disabled => 6

def SwitchState.code : SwitchState → Byte
  | .opened => 0
  | .floodcut => 1
  | .hold => 2

/-- A confirmed switch state as a byte; UNKNOWN is 3. -/
def confirmedByte : Option SwitchState → Byte
  | none => 3
  | some w => w.code

def LinkState.code : LinkState → Byte
  | .up => 0
  | .unresponsive => 1

def ResetCause.code : ResetCause → Byte
  | .power => 0
  | .pin => 1
  | .request => 2

def Validity.code : Validity → Byte
  | .valid => 0
  | .invalid => 1
  | .notLoaded => 2

def Result.code : Result → Byte
  | .ok => 0x00
  | .busy => 0x01
  | .state => 0x02
  | .locked => 0x03
  | .range => 0x04
  | .unknown => 0x05
  | .ended => 0x06

def TableName.code : TableName → Byte
  | .opt => 0
  | .letTable => 1

def StateCause.code : StateCause → Byte
  | .linkUp => 0
  | .linkDown => 1
  | .listenDone => 2
  | .trip => 3
  | .clear => 4
  | .confirm => 5
  | .release => 6
  | .evidence => 7
  | .evidenceGone => 8
  | .role => 9
  | .absent => 10

def ModeCause.code : ModeCause → Byte
  | .startDone => 0
  | .request => 1
  | .hostLost => 2
  | .wake _ _ => 3

def WakeKind.code : WakeKind → Byte
  | .linkUp => 1
  | .caught => 2
  | .trip => 3

def StoredResult.code : StoredResult → Byte
  | .done => 0
  | .abandoned => 1
  | .invalidAfterReset => 2

def WatchEndReason.code : WatchEndReason → Byte
  | .complete => 0
  | .stopped => 1

/-- The Guard Link kind codes of the commands (ch. 12 "Guard Link records"). -/
def CommandKind.code : CommandKind → Byte
  | .setport => 0x22
  | .inject => 0x23

/-- The Guard Link kind codes of the inbound records. -/
def InboundKind.code : InboundKind → Byte
  | .digest => 0x11
  | .catchRecord => 0x12
  | .link => 0x13
  | .ack => 0x14

/-- The BODY of a REJECT frame: reply kind 0x80, the reason, for BUSY the kind byte it answers (ch. 12). -/
def rejectBody : Reject → List Byte
  | .trunc => [0x80, 0x10]
  | .check => [0x80, 0x11]
  | .busy kind => [0x80, 0x12, kind]

/-! ### Report records (R167, ch. 12 "report records") -/

/-- Kind code of a report. -/
def ReportBody.kindCode : ReportBody → Byte
  | .state .. => 0x01
  | .loop .. => 0x02
  | .ploop .. => 0x03
  | .linkFaultDown .. => 0x04
  | .linkFaultUp .. => 0x04
  | .mode .. => 0x05
  | .trap .. => 0x06
  | .stored .. => 0x07
  | .gap .. => 0x08
  | .sample .. => 0x09
  | .watchEnd .. => 0x0A

/-- Port field of a report (R167). -/
def ReportBody.portField : ReportBody → Byte
  | .state p _ _ _ => portByte p
  | .loop v _ _ _ _ => portByte v
  | .ploop x _ _ => portByte x
  | .linkFaultDown p _ => portByte p
  | .linkFaultUp f _ => f.setWidth 8
  | .mode _ _ (.wake _ p) => portByte p
  | .mode _ _ _ => 0
  | .trap .. => 0
  | .stored .. => 0
  | .gap _ => 0
  | .sample p _ _ _ _ => portByte p
  | .watchEnd p _ _ => portByte p

/-- Wake kind of a MODE record; none is 0 (ch. 12). -/
def wakeByte : ModeCause → Byte
  | .wake k _ => k.code
  | _ => 0

/-- The kind fields of a report, from byte 6 on. -/
def ReportBody.fields : ReportBody → List Byte
  | .state _ b a c => [b.code, a.code, c.code]
  | .loop _ x y n k => [portByte x, portByte y, BitVec.ofNat 8 n, BitVec.ofNat 8 k]
  | .ploop x y n => [portByte x, portByte y, BitVec.ofNat 8 n]
  | .linkFaultDown _ k => [0, k.code]
  | .linkFaultUp _ k => [1, k.code]
  | .mode b a c => [b.code, a.code, c.code, wakeByte c]
  | .trap t i st => t.code :: BitVec.ofNat 8 i :: bytesOf 4 st.toNat
  | .stored a r => [a.code, r.code]
  | .gap n => bytesOf 2 n
  | .sample _ f e b t => bytesOf 2 f ++ bytesOf 3 e ++ bytesOf 2 b ++ [flagByte t]
  | .watchEnd _ r n => r.code :: bytesOf 2 n

/-- The 16 bytes of a fetched report record: kind, stamp, port, fields, and 0 in the unused bytes. -/
def Report.bytes (r : Report) : List Byte :=
  let used := r.body.kindCode :: bytesOf 4 r.stamp.toNat ++ r.body.portField :: r.body.fields
  used ++ List.replicate (16 - used.length) 0

/-- The eight bytes of the trap in a STAT or TRAPCLR reply; all but the state are 0 when empty (R181). -/
def trapBytes : Option TrapRecord → List Byte
  | none => List.replicate 8 0
  | some t => 1 :: t.table.code :: BitVec.ofNat 8 t.slot :: bytesOf 4 t.stamp.toNat ++ [flagByte t.overflow]

/-! ### Outbound Guard Link records (R110, R182) -/

/-- SETPORT state code: 01 OPEN, 10 FLOODCUT, 11 HOLD. -/
def SwitchState.linkCode : SwitchState → BitVec 2
  | .opened => 1
  | .floodcut => 2
  | .hold => 3

/-- A port in a five-bit port field. -/
def portField (p : Port) : PortField := BitVec.ofNat 5 p.val

/-- The 64 bits of an outbound record, every bit that the table gives to no field 0. -/
def OutRecord.word : OutRecord → Record
  | .strobe b => 0x21#8 ++ b ++ 0#48
  | .setport p w => 0x22#8 ++ portField p ++ w.linkCode ++ 0#49
  | .inject p r ident => 0x23#8 ++ portField p ++ portField p ++ r ++ ident ++ 0#2

/-- The bits of a record in the order they are sent, most significant first (R105). -/
def recordBits (w : Record) : List Bool := (List.range 64).map fun k => w.getLsbD (63 - k)

/-- The record that bits spell, the first one taken being the most significant (R105). -/
def recordOfBits (bits : List Bool) : Record := (BitVec.ofBoolListBE bits).setWidth 64

/-- A record on a direction of the Guard Link, clock by clock, each with the level of the frame pin and of the data
pin: the sync clock, then the 64 bits (R105). -/
def recordClocks (w : Record) : List (Bool × Bool) := (true, false) :: (recordBits w).map fun b => (false, b)

/-- The probe frame of R36: destination, source, type, version, identity, round, egress port, padding. -/
def probeFrame (ident : Identity) (round : Round) (egress : Port) : List Byte :=
  List.replicate 6 0xFF ++ [0x02, 0x00] ++ bytesOf 4 ident.toNat ++ [0x88, 0xB5] ++ [1] ++
    bytesOf 4 ident.toNat ++ bytesOf 2 round.toNat ++ [portByte egress] ++ List.replicate 38 0

/-! ### Policy parameters (R16, R161, ch. 12) -/

/-- The six parameters of a meter row, in identifier order. -/
inductive RowField | a | bmax | r | ttrip | tclear | nthr
  deriving DecidableEq, Repr

/-- A SETP parameter. -/
inductive Param
  | bootMode
  | tIVL
  | row (role : Role) (field : RowField)
  | tRND
  | tEXP
  | nCONF
  | nLSN
  | tHOLD0
  | tDECAY
  | tHOST
  | qatt
  deriving DecidableEq, Repr

/-- The row field at an identifier's low digit. -/
def RowField.ofDigit (n : Nat) : Option RowField :=
  if n = 0 then some .a
  else if n = 1 then some .bmax
  else if n = 2 then some .r
  else if n = 3 then some .ttrip
  else if n = 4 then some .tclear
  else if n = 5 then some .nthr
  else none

/-- The parameter an identifier names (ch. 12 "SETP parameter identifiers"). -/
def Param.ofId (b : Byte) : Option Param :=
  let n := b.toNat
  if n = 0x01 then some .bootMode
  else if n = 0x02 then some .tIVL
  else if n / 16 = 1 then (RowField.ofDigit (n % 16)).map (.row .access)
  else if n / 16 = 2 then (RowField.ofDigit (n % 16)).map (.row .teacher)
  else if n / 16 = 3 then (RowField.ofDigit (n % 16)).map (.row .uplink)
  else if n = 0x40 then some .tRND
  else if n = 0x41 then some .tEXP
  else if n = 0x42 then some .nCONF
  else if n = 0x43 then some .nLSN
  else if n = 0x44 then some .tHOLD0
  else if n = 0x45 then some .tDECAY
  else if n = 0x46 then some .tHOST
  else if n = 0x47 then some .qatt
  else none

/-- `v` put within `lo` to `hi`. -/
def clampTo (lo hi v : Nat) : Nat := max lo (min hi v)

/-- tIVL clamped to the largest of 5, 10, 20 and 50 that does not exceed it, or to 5 (R161 step 1). -/
def clampIVL (v : Nat) : Nat :=
  if 50 ≤ v then 50 else if 20 ≤ v then 20 else if 10 ≤ v then 10 else 5

/-- A value clamped to its parameter's own range (R161 step 1, R16, ch. 12 parameter summary). -/
def Param.clamp : Param → Nat → Nat
  | .bootMode, v => min 1 v
  | .tIVL, v => clampIVL v
  | .row _ .a, v => min 4095 v
  | .row _ .bmax, v => min 65535 v
  | .row _ .r, v => min 4095 v
  | .row _ .ttrip, v => clampTo 2 65535 v
  | .row _ .tclear, v => clampTo 1 65534 v
  | .row _ .nthr, v => clampTo 1 65535 v
  | .tRND, v => clampTo 5 250 v
  | .tEXP, v => clampTo 1 249 v
  | .nCONF, v => clampTo 1 7 v
  | .nLSN, v => clampTo 1 7 v
  | .tHOLD0, v => clampTo 10 2000 v
  | .tDECAY, v => clampTo 1000 600000 v
  | .tHOST, v => clampTo 100 60000 v
  | .qatt, v => clampTo 1 32 v

/-- The row of a role (R16).  UNUSED has no row; its Bmax is taken as 0 (R2), and the rest of the row
given for it here is read by no rule. -/
def Policy.rowOf (q : Policy) : Role → MeterRow
  | .access => q.access
  | .teacher => q.teacher
  | .uplink => q.uplink
  | .unused => ⟨0, 0, 0, 2, 1, 1⟩

def MeterRow.get (m : MeterRow) : RowField → Nat
  | .a => m.a
  | .bmax => m.bmax
  | .r => m.r
  | .ttrip => m.ttrip
  | .tclear => m.tclear
  | .nthr => m.nthr

def MeterRow.put (m : MeterRow) (f : RowField) (v : Nat) : MeterRow :=
  match f with
  | .a => { m with a := v }
  | .bmax => { m with bmax := v }
  | .r => { m with r := v }
  | .ttrip => { m with ttrip := v }
  | .tclear => { m with tclear := v }
  | .nthr => { m with nthr := v }

/-- A policy with one role's row replaced; UNUSED has none. -/
def Policy.putRow (q : Policy) (role : Role) (m : MeterRow) : Policy :=
  match role with
  | .access => { q with access := m }
  | .teacher => { q with teacher := m }
  | .uplink => { q with uplink := m }
  | .unused => q

/-- The value of a parameter; the boot mode is 0 for AUTONOMOUS and 1 for MANAGED (R161). -/
def Policy.get (q : Policy) : Param → Nat
  | .bootMode => if q.bootManaged then 1 else 0
  | .tIVL => q.tIVL
  | .row role f => (q.rowOf role).get f
  | .tRND => q.tRND
  | .tEXP => q.tEXP
  | .nCONF => q.nCONF
  | .nLSN => q.nLSN
  | .tHOLD0 => q.tHOLD0
  | .tDECAY => q.tDECAY
  | .tHOST => q.tHOST
  | .qatt => q.qatt

/-- A policy with one parameter's value replaced. -/
def Policy.put (q : Policy) (p : Param) (v : Nat) : Policy :=
  match p with
  | .bootMode => { q with bootManaged := decide (v ≠ 0) }
  | .tIVL => { q with tIVL := v }
  | .row role f => q.putRow role ((q.rowOf role).put f v)
  | .tRND => { q with tRND := v }
  | .tEXP => { q with tEXP := v }
  | .nCONF => { q with nCONF := v }
  | .nLSN => { q with nLSN := v }
  | .tHOLD0 => { q with tHOLD0 := v }
  | .tDECAY => { q with tDECAY := v }
  | .tHOST => { q with tHOST := v }
  | .qatt => { q with qatt := v }

/-- A row with Tclear clamped to Ttrip − 1 (R161 step 2). -/
def MeterRow.crossClamp (m : MeterRow) : MeterRow := { m with tclear := min m.tclear (m.ttrip - 1) }

/-- The cross clamp of R161 step 2: each row's Tclear to its Ttrip − 1, and tEXP to tRND − 1. -/
def Policy.crossClamp (q : Policy) : Policy :=
  { q with
    access := q.access.crossClamp
    teacher := q.teacher.crossClamp
    uplink := q.uplink.crossClamp
    tEXP := min q.tEXP (q.tRND - 1) }

/-- A row with every value in its own range. -/
def MeterRow.ownRange (m : MeterRow) : MeterRow :=
  { a := min 4095 m.a
    bmax := min 65535 m.bmax
    r := min 4095 m.r
    ttrip := clampTo 2 65535 m.ttrip
    tclear := clampTo 1 65534 m.tclear
    nthr := clampTo 1 65535 m.nthr }

/-- A policy with every value in its own range (R161 step 1). -/
def Policy.ownRange (q : Policy) : Policy :=
  { bootManaged := q.bootManaged
    tIVL := clampIVL q.tIVL
    access := q.access.ownRange
    teacher := q.teacher.ownRange
    uplink := q.uplink.ownRange
    tRND := clampTo 5 250 q.tRND
    tEXP := clampTo 1 249 q.tEXP
    nCONF := clampTo 1 7 q.nCONF
    nLSN := clampTo 1 7 q.nLSN
    tHOLD0 := clampTo 10 2000 q.tHOLD0
    tDECAY := clampTo 1000 600000 q.tDECAY
    tHOST := clampTo 100 60000 q.tHOST
    qatt := clampTo 1 32 q.qatt }

/-- A policy read from an area is put within its ranges and then cross-clamped (R176). -/
def Policy.settle (q : Policy) : Policy := q.ownRange.crossClamp

/-! ### Check of a settings area (R176).  The spec gives the polynomial, preset and bit order, not the
byte layout of the contents: the layout here is the model's (DESIGN CHOICE, log entry 7). -/

def MeterRow.bytes (m : MeterRow) : List Byte :=
  bytesOf 2 m.a ++ bytesOf 2 m.bmax ++ bytesOf 2 m.r ++ bytesOf 2 m.ttrip ++ bytesOf 2 m.tclear ++
    bytesOf 2 m.nthr

def Policy.bytes (q : Policy) : List Byte :=
  [flagByte q.bootManaged] ++ bytesOf 1 q.tIVL ++ q.access.bytes ++ q.teacher.bytes ++ q.uplink.bytes ++
    bytesOf 1 q.tRND ++ bytesOf 1 q.tEXP ++ bytesOf 1 q.nCONF ++ bytesOf 1 q.nLSN ++
    bytesOf 2 q.tHOLD0 ++ bytesOf 3 q.tDECAY ++ bytesOf 2 q.tHOST ++ bytesOf 1 q.qatt

def roleBytes (v : Vector Role 28) : List Byte := v.toList.map Role.code

def policyCheck (q : Policy) : BitVec 16 := crc16 q.bytes

def roleCheck (v : Vector Role 28) : BitVec 16 := crc16 (roleBytes v)

/-- A settings area passes when it was written whole and its stored check is the check of its contents. -/
def Area.passes {α : Type} (checkOf : α → BitVec 16) (a : Area α) : Bool :=
  a.whole && decide (a.check = checkOf a.contents)

/-- An area written whole with given contents. -/
def Area.written {α : Type} (checkOf : α → BitVec 16) (c : α) : Area α := ⟨c, checkOf c, true⟩

/-- The pairs of a SETP body: identifier and three-byte value; none unless whole pairs (R161, R181). -/
def parsePairs : List Byte → Option (List (Byte × Nat))
  | [] => some []
  | i :: v2 :: v1 :: v0 :: rest => (parsePairs rest).map ((i, natOf [v2, v1, v0]) :: ·)
  | _ => none

/-- The pairs with every identifier turned into its parameter, or none if one names none (R161). -/
def namePairs : List (Byte × Nat) → Option (List (Byte × Param × Nat))
  | [] => some []
  | (i, v) :: rest =>
    match Param.ofId i, namePairs rest with
    | some p, some more => some ((i, p, v) :: more)
    | _, _ => none

/-- The role codes of a ROLES body, or none if one names no role (R162). -/
def parseRoles : List Byte → Option (List Role)
  | [] => some []
  | b :: rest =>
    match Role.ofCode b, parseRoles rest with
    | some r, some more => some (r :: more)
    | _, _ => none

end Sys2Proof.Machine
end

