-- ==== Sys2Proof/Machine/Factory.lean ====
section
/-! DEFINITION. The factory values of the two settings areas (R16, R176) and the start-up record of a
port (R1). -/

namespace Sys2Proof.Machine

/-- The factory rows of R16. -/
def factoryAccess : MeterRow := ⟨20, 3000, 5, 200, 50, 100⟩
@[inherit_doc factoryAccess] def factoryTeacher : MeterRow := ⟨40, 6000, 10, 400, 100, 100⟩
@[inherit_doc factoryAccess] def factoryUplink : MeterRow := ⟨200, 20000, 50, 2000, 500, 100⟩

/-- The factory policy (R176). -/
def factoryPolicy : Policy :=
  { bootManaged := false
    tIVL := 10
    access := factoryAccess
    teacher := factoryTeacher
    uplink := factoryUplink
    tRND := 20
    tEXP := 5
    nCONF := 2
    nLSN := 2
    tHOLD0 := 500
    tDECAY := 60000
    tHOST := 3000
    qatt := 1 }

/-- The factory role of a port: 0 to 22 ACCESS, 23 TEACHER, 24 to 27 UPLINK (R176). -/
def factoryRole (p : Port) : Role :=
  if p.val ≤ 22 then .access else if p.val = 23 then .teacher else .uplink

/-- The factory role table. -/
def factoryRoles : Vector Role 28 := Vector.ofFn factoryRole

/-- The start-up record of a port with a role, under a policy (R1, R15, R77, R122). -/
def startRecord (q : Policy) (role : Role) : PortRec :=
  { role := role
    present := true
    linkUp := false
    override := .noOverride
    guard := if role = .unused then .disabled else .down
    strike := 0
    hold := 0
    listen := 0
    throttleHold := 0
    decay := 0
    lastF := 0
    avgE := 0
    creditB := (q.rowOf role).bmax
    trip := false
    mark := .idle
    wanted := .hold
    confirmed := none
    pendingFlag := true
    inFlight := none
    throttleDue := false
    holdDue := false
    decayDue := false }

/-- The port records at the end of the load (R1, R142). -/
def startPorts (q : Policy) (roles : Vector Role 28) : Vector PortRec 28 :=
  Vector.ofFn fun p => startRecord q (roles.get p)

end Sys2Proof.Machine
end

