-- ==== Sys2Proof/Syntax.lean ====
section
/-! DEFINITION. The commands of the block: one constructor per row of spec/opcode_table.json, in the
table's order, each with the operands the spec's text gives the step.  Management requests carry the
bytes of the frame's BODY after its kind byte (ch. 12), so that a body of a wrong length can be offered. -/

namespace Sys2Proof

/-- The steps of the LS-28 (spec/opcode_table.json, spec/95_what_each_step_holds.md). -/
inductive Instr
  /-- POWER_RESET (R140); `baud` is the level of BAUD as the part leaves reset (R152). -/
  | powerReset (baud : Bool)
  /-- PIN_RESET (R140); `baud` as for a POWER reset. -/
  | pinReset (baud : Bool)
  /-- SETTINGS_STORE_LOAD (R142): the end of tLOAD. -/
  | settingsStoreLoad
  /-- START_PACING_ALLOWANCE (R143). -/
  | startPacingAllowance
  /-- INTERVAL_EVENT (R18). -/
  | intervalEvent
  /-- ROUND_START (R40). -/
  | roundStart
  /-- PROBE_EXPIRY (R50): the next due expiry in R50's order. -/
  | probeExpiry
  /-- THROTTLE_HOLD_EXPIRY (R92) of a port. -/
  | throttleHoldExpiry (port : Port)
  /-- HOLD_EXPIRY (R96) of a port. -/
  | holdExpiry (port : Port)
  /-- STRIKE_DECAY (R101) of a port. -/
  | strikeDecay (port : Port)
  /-- HOST_LOST (R148). -/
  | hostLost
  /-- DIGEST (R22, R107): port, stamp byte, F. -/
  | digest (port : PortField) (stamp : Byte) (f : BitVec 16)
  /-- CATCH (R47, R107): ingress Y, egress X, round, identity. -/
  | catchRecord (ingress egress : PortField) (round : Round) (identity : Identity)
  /-- LINK (R3, R107): port, and whether the record reports the link up. -/
  | link (port : PortField) (up : Bool)
  /-- ACK (R113, R107): port, result OK or REFUSED, link status. -/
  | ack (port : PortField) (ok : Bool) (up : Bool)
  /-- FRAMING_ERROR (R106): a sync, then `bits` on GLDI, then a sync before the 64th bit. -/
  | framingError (bits : List Bool)
  /-- UNKNOWN_RECORD (R107): the complete record as received. -/
  | unknownRecord (record : Record)
  /-- ACK_TIMEOUT (R114). -/
  | ackTimeout
  /-- SETPORT (R127): the arbiter's own grant. -/
  | setport
  /-- INJECT (R44): the arbiter's own grant of the probe class. -/
  | inject
  /-- COMMAND_LAST_BIT (R112). -/
  | commandLastBit
  /-- CHARACTER (R153): the byte, and what is sampled as it ends: a framing fault, and the level of KEY, by which a
  request of the frame's last character is judged (R178). -/
  | character (byte : Byte) (stop : CharacterEnd)
  /-- GAP_TIMEOUT (R153). -/
  | gapTimeout
  /-- CHECK_FAIL (R154): the BODY and the CHECK of the complete frame. -/
  | checkFail (body : List Byte) (check : BitVec 16)
  /-- REJECT_BUSY (R154): kind byte and fields of the checked frame. -/
  | rejectBusy (kind : Byte) (fields : List Byte)
  /-- REPLY_END (R155); `baud` is the level of BAUD if the REQUEST reset follows (R140, R152). -/
  | replyEnd (baud : Bool)
  /-- UNKNOWN (R156): kind byte and fields of the request. -/
  | unknown (kind : Byte) (fields : List Byte)
  /-- STAT (R157); `key` is the level of KEY as read at the take (R178). -/
  | stat (key : Bool) (fields : List Byte)
  /-- PORTQ (R158). -/
  | portq (fields : List Byte)
  /-- FETCH (R170). -/
  | fetch (fields : List Byte)
  /-- ACKGAP (R171). -/
  | ackgap (fields : List Byte)
  /-- TRAPCLR (R159). -/
  | trapclr (fields : List Byte)
  /-- MODE (R146). -/
  | mode (fields : List Byte)
  /-- LESSON (R34). -/
  | lesson (fields : List Byte)
  /-- RESET (R160). -/
  | reset (fields : List Byte)
  /-- SETP (R161). -/
  | setp (fields : List Byte)
  /-- ROLES (R162); `key` is the level of KEY when the request is taken (R178). -/
  | roles (key : Bool) (fields : List Byte)
  /-- OVRD (R163). -/
  | ovrd (fields : List Byte)
  /-- STORE (R177); `key` is the level of KEY when the request is taken (R178). -/
  | store (key : Bool) (fields : List Byte)
  /-- WATCH (R165). -/
  | watch (fields : List Byte)
  /-- EXTEND (R174). -/
  | extend (fields : List Byte)
  /-- UNWATCH (R175). -/
  | unwatch (fields : List Byte)
  /-- WRITE_COMPLETION (R177): whether the non-volatile cells took the write. -/
  | writeCompletion (took : Bool)
  /-- KEY_FALL (R178). -/
  | keyFall
  /-- STROBE_LAST_BIT (R110). -/
  | strobeLastBit
  deriving DecidableEq, Repr

end Sys2Proof
end

