-- ==== Sys2Proof/Machine/State.lean ====
section
/-! DEFINITION. The state of the block: everything the spec gives it, the queue of waiting commands, the
reasons a step can stop, and the machine right after reset. -/

namespace Sys2Proof.Machine

/-- Reasons for a fault.  There is none: no rule of the spec stops the part, and every command has an
effect or, offered in a state in which the spec gives it no part, leaves the state as it is (log entry 1);
the empty type says so. -/
inductive Fault
  deriving DecidableEq, Repr

/-- Reasons for refusing a command. -/
inductive Refusal
  /-- A row of the table with no meaning yet, by its mnemonic.  Raised by no arm of `exec`: every row has
  its meaning; safe. -/
  | notModelled (mnemonic : String)
  deriving DecidableEq, Repr

/-- The state of the LS-28.  Every register, table, list, count, mark, mode and latched pin the spec names
has its home here (INVENTORY.md, "State"). -/
structure State where
  /-- The port records (R1). -/
  ports : Vector PortRec 28
  /-- The link-up order list, oldest first (R8). -/
  order : List Port
  clock : IntervalClock
  meter : FloodMeter
  probe : ProbeUnit
  evidence : EvidenceUnit
  /-- The Table Check's trap record (R55). -/
  trap : Option TrapRecord
  arbiter : Arbiter
  glink : GuardLink
  mgmt : ManagementLine
  control : ModeUnit
  reports : ReportUnit
  settings : SettingsStore
  /-- The guard identity in read-only memory (R36, R176); no command writes it. -/
  identity : Identity
  /-- The level of the KEY pin as last sampled (R178). -/
  key : Bool
  /-- The commands waiting, first in, first out (the model's own). -/
  pending : List Instr
  deriving DecidableEq, Repr

/-- The machine right after a POWER reset: both areas hold the factory values and pass (R176), the
Settings Store load is running (R142), and every item has its value for after any reset. -/
def State.reset : State :=
  { ports := startPorts factoryPolicy factoryRoles
    order := []
    clock := ⟨0, none, none, 0, none, false⟩
    meter := ⟨none, 0, 0⟩
    probe := ⟨[], Vector.replicate 32 none, 0, 0, 0, 0⟩
    evidence := ⟨Vector.replicate 16 none, 0, false⟩
    trap := none
    arbiter := ⟨27, 0, 0, false, false⟩
    glink := ⟨.hunt, none, none, none, .up, 0, 0, 0, 0, 0⟩
    mgmt := ⟨false, .hunt, none, .idle, none, false, 0, 0, 0, 0⟩
    control := ⟨.start, 0, false, .power, factoryPolicy, [], true⟩
    reports := ⟨[], false, 0, false, none⟩
    settings :=
      { policyArea := .written policyCheck factoryPolicy
        roleArea := .written roleCheck factoryRoles
        policyValidity := .notLoaded
        roleValidity := .notLoaded
        write := none }
    identity := 0
    key := false
    pending := [] }

end Sys2Proof.Machine
end

