-- ==== Sys2Proof/Machine/Flags.lean ====
section
/-! DEFINITION. The flags and states that a step derives afresh: the wanted switch state (R79), the
pending flag (R123), the class of a pending port (R124), metering and probing eligibility (R21, R41),
ATTN (R169), and the pins that follow the state. -/

namespace Sys2Proof.Machine

/-- The wanted switch state of an override and a guard state (R79). -/
def wantedOf (o : Override) (g : GuardState) : SwitchState :=
  match o with
  | .shut => .hold
  | .openPort => .opened
  | .noOverride =>
    match g with
    | .down => .hold
    | .listen => .hold
    | .blocked => .hold
    | .disabled => .hold
    | .throttle => .floodcut
    | .forward => .opened
    | .suspect => .opened

/-- Whether a SETPORT is owed to the port: the three conditions of R123. -/
def pendingOf (r : PortRec) : Bool :=
  r.present && decide (r.confirmed ≠ some r.wanted) && decide (r.inFlight ≠ some r.wanted)

/-- The arbiter recomputes the pending flag (R123). -/
def PortRec.recompute (r : PortRec) : PortRec := { r with pendingFlag := pendingOf r }

/-- The Port Guard derives the wanted state afresh and hands a changed value to the arbiter, which
recomputes the pending flag (R79, R123). -/
def PortRec.deriveWanted (r : PortRec) : PortRec :=
  let w := wantedOf r.override r.guard
  if w = r.wanted then r else { r with wanted := w }.recompute

/-- Restrictiveness, upward from OPEN through FLOODCUT to HOLD (ch. 07 "owing a command"). -/
def SwitchState.rank : SwitchState → Nat
  | .opened => 0
  | .floodcut => 1
  | .hold => 2

/-- The two classes of a pending port (R124). -/
inductive SetportClass | tightening | loosening
  deriving DecidableEq, Repr

/-- The class of a port; a port whose flag is clear has none (R124). -/
def classOf (r : PortRec) : Option SetportClass :=
  if r.pendingFlag then
    match r.confirmed with
    | none => some .tightening
    | some c =>
      if c.rank < r.wanted.rank then some .tightening
      else if r.wanted.rank < c.rank then some .loosening
      else none
  else none

/-- A port is eligible for metering when it is present, its link flag is up and its role is not UNUSED
(R21). -/
def PortRec.metered (r : PortRec) : Bool := r.present && r.linkUp && decide (r.role ≠ .unused)

/-- Only ACCESS and TEACHER ports are probed (R2). -/
def Role.probed (r : Role) : Bool := decide (r = .access ∨ r = .teacher)

/-- The guard states in which a port is probed (R41): the linked states. -/
def GuardState.linked (g : GuardState) : Bool :=
  match g with
  | .listen => true
  | .forward => true
  | .suspect => true
  | .throttle => true
  | .blocked => true
  | .down => false
  | .disabled => false

/-- A port is eligible for probing as far as its own record goes (R41). -/
def PortRec.probeable (r : PortRec) : Bool := r.present && r.role.probed && r.guard.linked

/-- ATTN is high while the level is at least Qatt or the overflow state is set (R169). -/
def State.attn (s : State) : Bool :=
  decide (s.control.policy.qatt ≤ s.reports.queue.length) || s.reports.overflow

/-- The characters being sent on MTXD; none while it is held at the stop level (R152, R155). -/
def State.mtxd (s : State) : Option (List Byte) :=
  match s.mgmt.line with
  | .sending body => some (frameBytes body)
  | .idle => none
  | .owed _ => none

/-- The level of MTXD in the bit time `k` counted from the start of the reply being sent: its characters follow back
to back, and the line stands at the stop level without one (R152, R155). -/
def State.mtxdLevel (s : State) (k : Nat) : Bool := ((s.mtxd.getD []).flatMap charBits).getD k true

/-- The rate of the Management Line, in baud (R152). -/
def State.baudRate (s : State) : Nat := if s.mgmt.fast then 460800 else 115200

/-- The record being sent on GLDO; with none, GLFO and GLDO are low (R105). -/
def State.gldo (s : State) : Option Record := s.glink.sending.map OutRecord.word

/-- The levels of GLFO and GLDO in the clock period `k` counted from the sync clock of the record being sent.  A waiting
record follows at the next clock, and both are low when nothing is left to send (R105, R111). -/
def State.linkLevels (s : State) (k : Nat) : Bool × Bool :=
  ((s.glink.sending.toList ++ s.glink.waiting.toList).flatMap fun r => recordClocks r.word).getD k (false, false)

end Sys2Proof.Machine
end

