-- ==== Sys2Proof/Machine/Ops.lean ====
section
/-! DEFINITION. The operations every block uses: reading and writing a port record, saturating counts,
appending a report (R168), a change of mode (R151) and its wake form (R150), the trap (R55), the checked
reads of both tables (R53, R54, R72, R73), the link-up order list (R8, R9), and handing a record to the
transmitter (R110). -/

namespace Sys2Proof.Machine

/-- A 16-bit count rises by one and stops at its maximum (00_scope "numbers"). -/
def satInc (n : Nat) : Nat := min Config.countMax (n + 1)

/-! ### Port records -/

/-- The record of a port. -/
def State.port (s : State) (p : Port) : PortRec := s.ports.get p

/-- The state with one port record replaced. -/
def State.setPort (s : State) (p : Port) (r : PortRec) : State := { s with ports := s.ports.set p.val r p.isLt }

/-- The state with one port record changed by a function of it. -/
def State.modPort (s : State) (p : Port) (f : PortRec → PortRec) : State := s.setPort p (f (s.port p))

/-- The state with every port record changed by a function of its port and itself. -/
def State.mapPorts (s : State) (f : Port → PortRec → PortRec) : State :=
  { s with ports := Vector.ofFn fun p => f p (s.port p) }

/-- The policy row of a port's role, read at the moment of use (R16). -/
def State.rowAt (s : State) (p : Port) : MeterRow := s.control.policy.rowOf (s.port p).role

/-! ### Reports -/

/-- A record handed to the Report Unit: appended at the tail, or dropped by the state of the queue at that
moment (R168).  Its stamp is that of the append (R167). -/
def report (b : ReportBody) (s : State) : State :=
  let u := s.reports
  if u.overflow then { s with reports := { u with lost := satInc u.lost } }
  else if u.queue.length < Config.queueMax then
    { s with reports := { u with queue := u.queue ++ [⟨s.clock.stamp, b⟩] } }
  else { s with reports := { u with overflow := true, lost := 1, acknowledged := false } }

/-! ### Mode changes -/

/-- A change of mode with its MODE record (R151).  The host-lost count is 0 at each entry into MANAGED and
held at 0 in every other mode (R148, R149). -/
def setMode (m : Mode) (c : ModeCause) (s : State) : State :=
  report (.mode s.control.mode m c)
    { s with control := { s.control with mode := m, hostLost := 0, hostLostDue := false } }

/-- A wake event: in REST the part returns to MANAGED; in any other mode nothing happens (R150). -/
def wake (k : WakeKind) (p : Port) (s : State) : State :=
  if s.control.mode = .rest then setMode .managed (.wake k p) s else s

/-! ### The trap and the checked reads -/

/-- A parity failure reported to the Table Check: the first one captures the trap and appends a TRAP
record, a later one sets the overflow mark (R55). -/
def trapFailure (t : TableName) (slot : Nat) (s : State) : State :=
  match s.trap with
  | none =>
    report (.trap t slot s.clock.stamp) { s with trap := some ⟨t, slot, s.clock.stamp, false⟩ }
  | some r => { s with trap := some { r with overflow := true } }

/-- An entry in a slot fails its parity check. -/
def optFails (e : Option OptEntry) : Bool :=
  match e with
  | some x => !x.parityOk
  | none => false

@[inherit_doc optFails]
def letFails (e : Option LetEntry) : Bool :=
  match e with
  | some x => !x.parityOk
  | none => false

/-- A failing OPT slot is emptied and reported (R54). -/
def dropOpt (i : Fin 32) (s : State) : State :=
  trapFailure .opt i.val { s with probe := { s.probe with opt := s.probe.opt.set i.val none i.isLt } }

/-- A failing LET slot is emptied and reported, and a victim sweep is owed (R73). -/
def dropLet (i : Fin 16) (s : State) : State :=
  trapFailure .letTable i.val
    { s with evidence := { s.evidence with slots := s.evidence.slots.set i.val none i.isLt, sweepOwed := true } }

/-- A read of every occupied OPT slot: failing entries are removed (R53, R54).  The order in which one scan reports
several of them, and so which one captures the trap, is the model's choice: ascending slot order (DESIGN CHOICE, log
entry 23). -/
def readOpt (s : State) : State :=
  ((List.finRange 32).filter fun i => optFails (s.probe.opt.get i)).foldl (fun t i => dropOpt i t) s

/-- A read of every occupied LET slot: failing entries are removed (R72, R73), and reported in ascending slot order,
which is the model's choice (DESIGN CHOICE, log entry 23). -/
def readLet (s : State) : State :=
  ((List.finRange 16).filter fun i => letFails (s.evidence.slots.get i)).foldl (fun t i => dropLet i t) s

/-- The standing entries of the LET, in slot order. -/
def State.letEntries (s : State) : List LetEntry :=
  (List.finRange 16).filterMap fun i => s.evidence.slots.get i

/-- Some standing entry names `p` victim (R74). -/
def State.named (s : State) (p : Port) : Bool := s.letEntries.any fun e => decide (e.victim = some p)

/-- Some standing entry has `p` as egress or ingress (R74). -/
def State.involved (s : State) (p : Port) : Bool :=
  s.letEntries.any fun e => decide (e.egress = p) || decide (e.ingress = p)

/-! ### The link-up order list -/

/-- The port joins at the tail; if it stands in the list it is removed first (R8). -/
def appendOrder (p : Port) (l : List Port) : List Port := l.filter (fun q => decide (q ≠ p)) ++ [p]

/-- The port leaves the list; the others keep their order (R8). -/
def removeOrder (p : Port) (l : List Port) : List Port := l.filter fun q => decide (q ≠ p)

/-- Of two different ports the one nearer the tail (R9). -/
def moreRecent (l : List Port) (x y : Port) : Port := if l.idxOf x < l.idxOf y then y else x

/-! ### Sets of ports, kept in ascending order -/

/-- A port put into an ascending list of ports, once. -/
def insertPort (p : Port) : List Port → List Port
  | [] => [p]
  | q :: l => if p < q then p :: q :: l else if p = q then q :: l else q :: insertPort p l

/-! ### The transmitter -/

/-- A record handed to the transmitter: sent at once if it is idle, waiting behind the record being sent
otherwise (R110, R111). -/
def handTx (r : OutRecord) (s : State) : State :=
  match s.glink.sending with
  | none => { s with glink := { s.glink with sending := some r } }
  | some _ => { s with glink := { s.glink with waiting := some r } }

end Sys2Proof.Machine
end

