-- ==== Sys2Proof/Machine/GuardOps.lean ====
section
/-! DEFINITION. The Port Guard (ch. 05): one operation for a change of guard state, and the effect of each
event on a port.  Also the Evidence Unit's evidence-gone check (R67) and victim sweep (R73), and the
Port Guard's questions to it (R74). -/

namespace Sys2Proof.Machine

/-- The record of a port that has entered a guard state: every count that belongs to another state is 0,
the entered state's count starts at its value, and the wanted state is derived afresh (R77, R79). -/
def PortRec.enter (r : PortRec) (g : GuardState) (throttleHold hold : Nat) : PortRec :=
  { r with
    guard := g
    listen := 0
    throttleHold := throttleHold
    hold := hold
    decay := 0
    throttleDue := false
    holdDue := false
    decayDue := false }.deriveWanted

/-- A change of a port's guard state: the record enters the state, and one STATE record is appended (R80). -/
def moveGuard (p : Port) (g : GuardState) (throttleHold hold : Nat) (c : StateCause) (s : State) : State :=
  report (.state p (s.port p).guard g c) (s.setPort p ((s.port p).enter g throttleHold hold))

/-- To a state with no count of its own, or whose count starts at 0: DOWN, LISTEN, FORWARD, SUSPECT or
DISABLED. -/
def goPlain (p : Port) (g : GuardState) (c : StateCause) (s : State) : State := moveGuard p g 0 0 c s

/-- Entry into THROTTLE: the throttle-hold count takes nTHR of the port's role (R91). -/
def goThrottle (p : Port) (c : StateCause) (s : State) : State :=
  moveGuard p .throttle (s.rowAt p).nthr 0 c s

/-- The strike count after a block (R95). -/
def strikeUp (n : Nat) : Nat := min Config.strikeMax (n + 1)

/-- The hold for a strike: tHOLD0 × 2^(strike − 1) (R95). -/
def holdFor (tHOLD0 strike : Nat) : Nat := tHOLD0 * 2 ^ (strike - 1)

/-- Entry into BLOCKED: the strike rises, and the hold count takes the hold of the new strike (R95). -/
def goBlocked (p : Port) (s : State) : State :=
  let k := strikeUp (s.port p).strike
  moveGuard p .blocked 0 (holdFor s.control.policy.tHOLD0 k) .confirm (s.modPort p fun r => { r with strike := k })

/-- Evidence for a port (R87, R88, R94, R98). -/
def evidenceEvent (p : Port) (s : State) : State :=
  match (s.port p).guard with
  | .listen => s.modPort p fun r => { r with listen := 0 }
  | .forward => goPlain p .suspect .evidence s
  | .suspect => s
  | .throttle => s
  | .blocked => s
  | .down => s
  | .disabled => s

/-- Evidence-gone for a port (R88, R97). -/
def evidenceGone (p : Port) (s : State) : State :=
  match (s.port p).guard with
  | .suspect => goPlain p .forward .evidenceGone s
  | .blocked => if (s.port p).hold = 0 then goPlain p .listen .release s else s
  | .listen => s
  | .forward => s
  | .throttle => s
  | .down => s
  | .disabled => s

/-- The guard states from which a confirm event blocks a port (R90). -/
def GuardState.blockable (g : GuardState) : Bool :=
  match g with
  | .listen => true
  | .forward => true
  | .suspect => true
  | .throttle => true
  | .blocked => false
  | .down => false
  | .disabled => false

/-- A confirm event for a port (R90). -/
def confirmEvent (p : Port) (s : State) : State :=
  if (s.port p).guard.blockable then goBlocked p s else s

/-- A trip event that has been passed on to the Port Guard (R89, R94). -/
def tripPassed (p : Port) (s : State) : State :=
  match (s.port p).guard with
  | .forward => goThrottle p .trip s
  | .suspect => goThrottle p .trip s
  | .listen => s.modPort p fun r => { r with listen := 0 }
  | .throttle =>
    s.modPort p fun r => { r with throttleHold := (s.control.policy.rowOf r.role).nthr, throttleDue := false }
  | .blocked => s
  | .down => s
  | .disabled => s

/-- A port leaves LISTEN: to THROTTLE if its trip flag is set, otherwise to FORWARD (R85). -/
def leaveListen (p : Port) (s : State) : State :=
  if (s.port p).trip then goThrottle p .listenDone s else goPlain p .forward .listenDone s

/-- One judgement of a port in LISTEN: a clean one raises the listen count and may end LISTEN, one that is
not clean sets the count to 0 (R84, R86). -/
def listenJudge (p : Port) (clean : Bool) (s : State) : State :=
  if clean then
    let n := min Config.cleanMax ((s.port p).listen + 1)
    let t := s.modPort p fun r => { r with listen := n }
    if s.control.policy.nLSN ≤ n then leaveListen p t else t
  else s.modPort p fun r => { r with listen := 0 }

/-! ### The Evidence Unit's checks that end in guard events -/

/-- Evidence-gone, in ascending port order, for each of the given victims that no standing entry names
(R67). -/
def evidenceGoneCheck (victims : Port → Bool) (s : State) : State :=
  (allPorts.filter fun p => victims p && !s.named p).foldl (fun t p => evidenceGone p t) s

/-- The victim sweep that an operation owes after a LET parity failure (R73): one scan of the LET, then
evidence-gone for every port in SUSPECT or BLOCKED that no standing entry names.  A failure in the
sweep's own scan does not repeat it. -/
def settleSweep (s : State) : State :=
  if s.evidence.sweepOwed then
    let t := readLet s
    let u := { t with evidence := { t.evidence with sweepOwed := false } }
    (allPorts.filter fun p =>
      (decide ((u.port p).guard = .suspect) || decide ((u.port p).guard = .blocked)) && !u.named p).foldl
      (fun v p => evidenceGone p v) u
  else s

/-- The LET with the entries that meet a condition removed. -/
def eraseLet (cond : LetEntry → Bool) (s : State) : State :=
  { s with
    evidence :=
      { s.evidence with
        slots := Vector.ofFn fun i =>
          match s.evidence.slots.get i with
          | some e => if cond e then none else some e
          | none => none } }

/-- One removal operation on the LET: the checked scan, the removal of every entry that meets the
condition, the evidence-gone check of the victims named by removed entries, and the sweep if a failing
entry was found (R67, R68, R70, R71, R73). -/
def withdraw (cond : LetEntry → Bool) (s : State) : State :=
  let t := readLet s
  let gone := t.letEntries.filter cond
  settleSweep (evidenceGoneCheck (fun p => gone.any fun e => decide (e.victim = some p)) (eraseLet cond t))

/-- A port whose throttle has ended leaves THROTTLE with cause CLEAR: to SUSPECT if it is named victim, to
FORWARD if not (R92). -/
def leaveThrottle (p : Port) (s : State) : State :=
  let t := readLet s
  settleSweep (if t.named p then goPlain p .suspect .clear t else goPlain p .forward .clear t)

/-- A clear event for a port (R93). -/
def clearEvent (p : Port) (s : State) : State :=
  if (s.port p).guard = .throttle ∧ (s.port p).throttleHold = 0 then leaveThrottle p s else s

/-- The judgement at the end of a throttle hold: the port leaves if its trip flag is clear (R92). -/
def throttleEnds (p : Port) (s : State) : State :=
  let t := s.modPort p fun r => { r with throttleDue := false }
  let r := s.port p
  if r.throttleDue ∧ r.guard = .throttle ∧ r.throttleHold = 0 ∧ r.trip = false then leaveThrottle p t else t

/-- The judgement at the end of a hold: the port is released unless some entry names it victim (R96). -/
def holdEnds (p : Port) (s : State) : State :=
  let t := s.modPort p fun r => { r with holdDue := false }
  let r := s.port p
  if r.holdDue ∧ r.guard = .blocked ∧ r.hold = 0 then
    let u := readLet t
    settleSweep (if u.named p then u else goPlain p .listen .release u)
  else t

/-- A step of strike decay: the strike falls by one if it is above 0, and the decay count returns to 0
(R101). -/
def decayEnds (p : Port) (s : State) : State :=
  if (s.port p).decayDue then
    s.modPort p fun r => { r with strike := r.strike - 1, decay := 0, decayDue := false }
  else s

/-- The listen bookkeeping of a port in LISTEN, after the question whether the port is involved (R84,
R86). -/
def listenBook (p : Port) (quiet : Bool) (s : State) : State :=
  if (s.port p).guard = .listen then
    let t := readLet s
    settleSweep (listenJudge p (quiet && !t.involved p) t)
  else s

end Sys2Proof.Machine
end

