-- ==== Sys2Proof/Machine/EvidenceOps.lean ====
section
/-! DEFINITION. The Evidence Unit (ch. 04): sightings, eviction, victim choice, confirmation and the storm
interlock. -/

namespace Sys2Proof.Machine

/-- The lowest slot whose entry has this egress and ingress. -/
def findLet (x y : Port) (s : State) : Option (Fin 16) :=
  (List.finRange 16).find? fun i =>
    match s.evidence.slots.get i with
    | some e => decide (e.egress = x ∧ e.ingress = y)
    | none => false

/-- The lowest-numbered free LET slot (R57). -/
def freeLet (s : State) : Option (Fin 16) :=
  (List.finRange 16).find? fun i => (s.evidence.slots.get i).isNone

/-- An entry written to a LET slot, with fresh parity (R72). -/
def writeLet (i : Fin 16) (e : LetEntry) (s : State) : State :=
  { s with
    evidence :=
      { s.evidence with slots := s.evidence.slots.set i.val (some { e with parityOk := true }) i.isLt } }

/-- The victim of a new entry (R62). -/
def chooseVictim (x y : Port) (s : State) : Option Port :=
  let ax := decide ((s.port x).role = .access)
  let ay := decide ((s.port y).role = .access)
  if x = y then (if ax then some x else none)
  else if ax && ay then some (moreRecent s.order x y)
  else if ax then some x
  else if ay then some y
  else none

/-- The first entry is evicted before the second: a lower count, or at equal counts a greater age (R61).
At equality of both the lower slot, which comes first in the search, stays. -/
def evictsBefore (now : Stamp) (a b : LetEntry) : Bool :=
  decide (a.count < b.count) ||
    (decide (a.count = b.count) && decide ((now - b.firstSeen).toNat < (now - a.firstSeen).toNat))

/-- The slot to evict from a full LET (R61). -/
def evictChoice (s : State) : Option (Fin 16) :=
  (List.finRange 16).foldl
    (fun best i =>
      match s.evidence.slots.get i with
      | none => best
      | some e =>
        match best with
        | none => some i
        | some j =>
          match s.evidence.slots.get j with
          | none => some i
          | some b => if evictsBefore s.clock.stamp e b then some i else some j)
    none

/-- Effects of a confirmation on the entry's ports (R65 steps 2 and 3, R66), `e` being the entry after
confirmation and `first` whether its confirmed mark has just been set. -/
def confirmEffects (e : LetEntry) (first : Bool) (s : State) : State :=
  match e.victim with
  | some v =>
    let t := confirmEvent v s
    if (s.port v).guard.blockable then
      report (.loop v e.egress e.ingress e.count (t.port v).strike) t
    else t
  | none => if first then report (.ploop e.egress e.ingress e.count) s else s

/-- Confirmation of the entry in a slot: its count becomes the greater of its count and nCONF, its
confirmed mark is set, and the effects of R65 follow (R63, R64). -/
def confirmSlot (i : Fin 16) (s : State) : State :=
  match s.evidence.slots.get i with
  | none => s
  | some e =>
    let e' := { e with count := max e.count s.control.policy.nCONF, confirmed := true }
    confirmEffects e' (!e.confirmed) (writeLet i e' s)

/-- The confirmation check after a sighting: by count, or by a trip flag of either port (R63). -/
def confirmCheck (i : Fin 16) (s : State) : State :=
  match s.evidence.slots.get i with
  | none => s
  | some e =>
    if s.control.policy.nCONF ≤ e.count ∨ (s.port e.egress).trip ∨ (s.port e.ingress).trip then
      confirmSlot i s
    else s

/-- The new entry of a sighting (R60 step 2). -/
def newEntry (x y : Port) (s : State) : LetEntry :=
  { egress := x
    ingress := y
    count := 1
    firstSeen := s.clock.stamp
    victim := chooseVictim x y s
    confirmed := false
    parityOk := true }

/-- Evidence-gone for the victim of an evicted entry that no standing entry names (R60 step 3). -/
def evictedGone (v : Option Port) (s : State) : State :=
  match v with
  | some p => if s.named p then s else evidenceGone p s
  | none => s

/-- Evidence for the victim of a new entry (R60 step 4). -/
def newVictimEvidence (v : Option Port) (s : State) : State :=
  match v with
  | some p => evidenceEvent p s
  | none => s

/-- A new entry in a slot, with the events of steps 2 to 5 of R60; `evicted` is the victim of the entry
evicted in step 1, if any. -/
def createIn (i : Fin 16) (x y : Port) (evicted : Option Port) (s : State) : State :=
  let e := newEntry x y s
  confirmCheck i (newVictimEvidence e.victim (evictedGone evicted (writeLet i e s)))

/-- The victim of the entry in a slot. -/
def victimAt (i : Fin 16) (s : State) : Option Port := (s.evidence.slots.get i).bind LetEntry.victim

/-- A sighting with no entry for its pair: in the lowest free slot, or in place of an evicted entry (R60,
R61). -/
def createEntry (x y : Port) (s : State) : State :=
  match freeLet s with
  | some i => createIn i x y none s
  | none =>
    match evictChoice s with
    | none => s
    | some i =>
      createIn i x y (victimAt i s)
        { s with evidence := { s.evidence with evictions := satInc s.evidence.evictions } }

/-- A sighting for a standing entry raises its count, at most to 7 (R59). -/
def creditSlot (i : Fin 16) (s : State) : State :=
  match s.evidence.slots.get i with
  | none => s
  | some e => confirmCheck i (writeLet i { e with count := min Config.cleanMax (e.count + 1) } s)

/-- A sighting of egress X and ingress Y (R59, R60); the sweep follows if its lookup found a failing entry
(R73). -/
def sighting (x y : Port) (s : State) : State :=
  let t := readLet s
  settleSweep
    (match findLet x y t with
     | some i => creditSlot i t
     | none => createEntry x y t)

/-- The interlock confirms the entry of a slot if the tripping port is one of its ports (R64 step 1). -/
def interlockSlot (p : Port) (i : Fin 16) (s : State) : State :=
  match s.evidence.slots.get i with
  | none => s
  | some e => if e.egress = p ∨ e.ingress = p then confirmSlot i s else s

/-- The storm interlock: every standing entry of the port, in slot order (R64 step 1). -/
def interlock (p : Port) (s : State) : State :=
  (List.finRange 16).foldl (fun t i => interlockSlot p i t) s

/-- A trip event of a port: wake (R150), interlock, and the Port Guard's part unless the port is then
BLOCKED (R64).  The search reads all slots before the first confirmation, so a TRAP record of the search precedes the
records of the confirmations; the spec gives no order of the two, and this one is the model's choice (DESIGN CHOICE,
log entry 24). -/
def tripEvent (p : Port) (s : State) : State :=
  let t := interlock p (readLet (wake .trip p s))
  settleSweep (if (t.port p).guard = .blocked then t else tripPassed p t)

end Sys2Proof.Machine
end

