-- ==== Sys2Proof/Machine/MeterOps.lean ====
section
/-! DEFINITION. The Flood Meter (ch. 02) and the watch it feeds (R173): the three steps of an update, the
acceptance of a DIGEST, the reset of a meter record and the judgement of missing windows. -/

namespace Sys2Proof.Machine

/-- Step 1 of the update: the credit after the count, and the uncovered excess X′ (R27). -/
def creditStep (m : MeterRow) (b f : Nat) : Nat × Nat :=
  if m.a < f then (if f - m.a ≤ b then (b - (f - m.a), 0) else (0, (f - m.a) - b))
  else (min m.bmax (b + m.r), 0)

/-- Step 2 of the update: the running average (R28). -/
def averageStep (e x : Nat) : Nat := (7 * e + 256 * x) / 8

/-- Step 3 of the update: the trip flag after comparison with the levels (R29). -/
def tripStep (m : MeterRow) (trip : Bool) (e : Nat) : Bool :=
  if trip then !decide (e < 256 * m.tclear) else decide (256 * m.ttrip ≤ e)

/-- The meter record after a taken DIGEST (R22, R27, R28, R29). -/
def meterUpdate (m : MeterRow) (f : Nat) (r : PortRec) : PortRec :=
  let c := creditStep m r.creditB f
  let e := averageStep r.avgE c.2
  { r with
    lastF := f
    creditB := c.1
    avgE := e
    trip := tripStep m r.trip e
    mark := .taken }

/-- The watch after a sample point has emptied its count: the extension slot, or the end (R173 step 3). -/
def watchEmptied (w : Watch) (s : State) : State :=
  match w.slot with
  | some m => { s with reports := { s.reports with watch := some { w with remaining := some m, slot := none } } }
  | none =>
    let t := report (.watchEnd w.port .complete w.skipped) s
    { t with reports := { t.reports with watch := none } }

/-- The count-down of a sample point (R173 steps 2 and 3). -/
def watchCount (w : Watch) (s : State) : State :=
  match w.remaining with
  | none => { s with reports := { s.reports with watch := some w } }
  | some n =>
    if n - 1 = 0 then watchEmptied { w with remaining := some 0 } s
    else { s with reports := { s.reports with watch := some { w with remaining := some (n - 1) } } }

/-- A sample point: a SAMPLE, or one more skipped sample (R173 step 1), and the count-down. -/
def samplePoint (w : Watch) (r : PortRec) (s : State) : State :=
  if s.reports.queue.length < Config.halfQueue ∧ s.reports.overflow = false then
    watchCount { w with counter := 0 } (report (.sample w.port r.lastF r.avgE r.creditB r.trip) s)
  else watchCount { w with counter := 0, skipped := satInc w.skipped } s

/-- A taken DIGEST of a port reaches the watch, `r` being the record just updated (R31, R173). -/
def watchDigest (p : Port) (r : PortRec) (s : State) : State :=
  match s.reports.watch with
  | none => s
  | some w =>
    if w.port = p then
      if w.decimation ≤ w.counter + 1 then samplePoint w r s
      else { s with reports := { s.reports with watch := some { w with counter := w.counter + 1 } } }
    else s

/-- A DIGEST that is taken: the update, its trip or clear event, and then the watch (R22, R30, R31). -/
def takeDigest (p : Port) (f : Nat) (s : State) : State :=
  let r := s.port p
  let r' := meterUpdate (s.rowAt p) f r
  let t := s.setPort p r'
  let u :=
    if r'.trip && !r.trip then tripEvent p t
    else if r.trip && !r'.trip then clearEvent p t
    else t
  watchDigest p r' u

/-- A DIGEST that is discarded with a count (R22, R25). -/
def lateDigest (s : State) : State :=
  { s with meter := { s.meter with lateOrDuplicate := satInc s.meter.lateOrDuplicate } }

/-- A DIGEST at the meter, judged in the order of R22's table. -/
def digestAtMeter (p : Port) (stamp : Byte) (f : Nat) (s : State) : State :=
  match s.meter.takingStamp with
  | none => s
  | some k =>
    if (s.port p).metered = false then lateDigest s
    else if stamp ≠ k then lateDigest s
    else if (s.port p).mark = .taken then lateDigest s
    else takeDigest p f s

/-- The meter record after a link-down event: the last count is kept (R32). -/
def meterReset (bmax : Nat) (r : PortRec) : PortRec :=
  { r with avgE := 0, creditB := bmax, trip := false, throttleHold := 0, mark := .idle, throttleDue := false }

/-- The meter record after a role change (R13, R33). -/
def meterRole (q : Policy) (old new : Role) (r : PortRec) : PortRec :=
  let bmax := (q.rowOf new).bmax
  if new = .unused then
    { r with creditB := min r.creditB bmax, avgE := 0, trip := false, throttleHold := 0, mark := .idle }
  else if old = .unused then { r with creditB := bmax, avgE := 0, trip := false }
  else { r with creditB := min r.creditB bmax }

/-- The meter's part of an interval event: missing windows, the taking stamp, the marks (R21, R24). -/
def meterInterval (s : State) : State :=
  let missed := (allPorts.filter fun p => (s.port p).metered && decide ((s.port p).mark = .awaited)).length
  let t := s.mapPorts fun _ r => { r with mark := if r.metered then .awaited else .idle }
  { t with
    meter :=
      { t.meter with
        takingStamp := some (s.clock.stamp.setWidth 8)
        missing := min Config.countMax (t.meter.missing + missed) } }

end Sys2Proof.Machine
end

