-- ==== Sys2Proof/Machine/ProbeOps.lean ====
section
/-! DEFINITION. The Probe Unit (ch. 03): catches, the outcome of an INJECT, expiries and their order, the
steps of a round start, and the removals. -/

namespace Sys2Proof.Machine

/-- The lowest OPT slot whose entry has this round and egress. -/
def findOpt (r : Round) (x : Port) (s : State) : Option (Fin 32) :=
  (List.finRange 32).find? fun i =>
    match s.probe.opt.get i with
    | some e => decide (e.round = r ∧ e.egress = x)
    | none => false

/-- The lowest-numbered free OPT slot (R43). -/
def freeOpt (s : State) : Option (Fin 32) :=
  (List.finRange 32).find? fun i => (s.probe.opt.get i).isNone

/-- An entry written to an OPT slot, with fresh parity (R53). -/
def writeOpt (i : Fin 32) (e : OptEntry) (s : State) : State :=
  { s with
    probe := { s.probe with opt := s.probe.opt.set i.val (some { e with parityOk := true }) i.isLt } }

/-- An OPT slot freed. -/
def clearOpt (i : Fin 32) (s : State) : State :=
  { s with probe := { s.probe with opt := s.probe.opt.set i.val none i.isLt } }

/-- The OPT with the entries that meet a condition removed, without expiry evaluation. -/
def eraseOpt (cond : OptEntry → Bool) (s : State) : State :=
  { s with
    probe :=
      { s.probe with
        opt := Vector.ofFn fun i =>
          match s.probe.opt.get i with
          | some e => if cond e then none else some e
          | none => none } }

/-- One more skipped probe (R38). -/
def skipProbe (s : State) : State := { s with probe := { s.probe with skipped := satInc s.probe.skipped } }

/-- One more late catch (R47). -/
def lateCatch (s : State) : State := { s with probe := { s.probe with lateCatch := satInc s.probe.lateCatch } }

/-- A catch whose entry has been found: a repeat or a credited catch, each with its wake event (R47 steps
5 and 6, R48). -/
def catchFound (i : Fin 32) (y : Port) (s : State) : State :=
  match s.probe.opt.get i with
  | none => s
  | some e =>
    let t := wake .caught y s
    if y ∈ e.caught then t
    else sighting e.egress y (writeOpt i { e with caught := insertPort y e.caught } t)

/-- A catch with the part's identity and both ports in range (R47 steps 3 to 6). -/
def catchOn (x y : Port) (r : Round) (s : State) : State :=
  if (s.port y).present && (s.port y).linkUp then
    let t := readOpt s
    match findOpt r x t with
    | none => lateCatch t
    | some i => catchFound i y t
  else lateCatch s

/-- A CATCH at the Probe Unit, judged in the order of R47's table. -/
def catchAtProbe (y x : PortField) (r : Round) (ident : Identity) (s : State) : State :=
  if ident ≠ s.identity then { s with probe := { s.probe with foreign := satInc s.probe.foreign } }
  else
    match portOf x, portOf y with
    | some xp, some yp => catchOn xp yp r s
    | _, _ => { s with probe := { s.probe with malformed := satInc s.probe.malformed } }

/-- ACK OK to an INJECT: its entry becomes OUT with the expiry stamp current stamp + tEXP (R45). -/
def probeAcked (r : Round) (x : Port) (s : State) : State :=
  let t := readOpt s
  match findOpt r x t with
  | none => t
  | some i =>
    match t.probe.opt.get i with
    | none => t
    | some e =>
      writeOpt i { e with phase := .out (t.clock.stamp + BitVec.ofNat 32 t.control.policy.tEXP) } t

/-- ACK REFUSED or a timeout of an INJECT: its entry is removed and counts as skipped (R46). -/
def probeEnded (r : Round) (x : Port) (s : State) : State :=
  let t := readOpt s
  match findOpt r x t with
  | none => t
  | some i => skipProbe (clearOpt i t)

/-- The expiry of the entry in a slot: the LET entries of its egress that it did not renew, the listen
bookkeeping, and the end of the entry (R50, R68, R84). -/
def expireSlot (i : Fin 32) (s : State) : State :=
  match s.probe.opt.get i with
  | none => s
  | some e =>
    let t := withdraw (fun l => decide (l.egress = e.egress) && !decide (l.ingress ∈ e.caught)) s
    clearOpt i
      (if (t.port e.egress).role.probed then listenBook e.egress (decide (e.caught = [])) t else t)

/-- The order of expiries: ascending egress, and for one egress the entry of an earlier round before one
of the current round (R50). -/
def expiryOrder (slots : List (Fin 32)) (s : State) : List (Fin 32) :=
  allPorts.flatMap fun p =>
    let mine := slots.filter fun i =>
      match s.probe.opt.get i with
      | some e => decide (e.egress = p)
      | none => false
    let current := fun i =>
      match s.probe.opt.get i with
      | some e => decide (some e.round = s.clock.round)
      | none => false
    (mine.filter fun i => !current i) ++ mine.filter current

/-- The OUT entries whose expiry stamp equals the interval stamp, in the order they expire (R50).  An entry that
fails its parity check does not expire (R54); the scan that finds it is the interval event's. -/
def dueSlots (s : State) : List (Fin 32) :=
  expiryOrder
    ((List.finRange 32).filter fun i =>
      match s.probe.opt.get i with
      | some e => e.parityOk && decide (e.phase = .out s.clock.stamp)
      | none => false)
    s

/-- Every expiry that is due is taken, one after another (R50). -/
def expireDue (s : State) : State := (dueSlots s).foldl (fun u i => expireSlot i u) s

/-- An entry belongs neither to a round nor to the one before it (R40 step 3). -/
def OptEntry.older (r : Round) (e : OptEntry) : Bool := decide (e.round ≠ r ∧ e.round ≠ r - 1)

/-- Step 3 of a round start: older SENDING entries are removed, older OUT entries expire at once in
ascending egress order (R40).  The whole scan precedes the first expiry, so its TRAP records precede the records of the
expiries: the model's choice (DESIGN CHOICE, log entry 28). -/
def dealOld (r : Round) (s : State) : State :=
  let t := eraseOpt (fun e => e.older r && decide (e.phase = .sending)) (readOpt s)
  let old := (List.finRange 32).filter fun i =>
    match t.probe.opt.get i with
    | some e => e.older r
    | none => false
  (expiryOrder old t).foldl (fun u i => expireSlot i u) t

/-- The ports eligible for probing, in ascending order (R41). -/
def eligibleProbes (s : State) : List Port :=
  if s.glink.state = .up ∧ s.control.mode ≠ .start then allPorts.filter fun p => (s.port p).probeable else []

/-- The number of the round that starts now (R40 step 1). -/
def nextRound (s : State) : Round :=
  match s.clock.round with
  | none => 0
  | some r => r + 1

/-- The four steps of a round start (R40), with the latch of the base length (R39). -/
def roundSteps (s : State) : State :=
  let r := nextRound s
  let s1 :=
    { s with
      clock := { s.clock with round := some r, timer := 0, base := some s.control.policy.tRND, roundDue := false }
      probe :=
        { s.probe with
          skipped := min Config.countMax (s.probe.skipped + s.probe.list.length)
          list := [] } }
  let s2 := dealOld r s1
  { s2 with probe := { s2.probe with list := eligibleProbes s2 } }

/-- The bookkeeping of the UPLINK ports at a round start that comes at an interval event (R86). -/
def uplinkBook (s : State) : State :=
  if s.glink.state = .up then
    allPorts.foldl (fun t p => if (t.port p).role = .uplink then listenBook p true t else t) s
  else s

/-- The Probe Unit's part of a link-down event or a role change: the port's entries are removed without
evaluation (R6 step 3, R12). -/
def removeProbes (p : Port) (s : State) : State :=
  eraseOpt (fun e => decide (e.egress = p)) (readOpt s)

/-- A port leaves the pending probe list and is not counted as skipped (R42). -/
def dropProbe (p : Port) (s : State) : State :=
  { s with probe := { s.probe with list := s.probe.list.filter fun q => decide (q ≠ p) } }

end Sys2Proof.Machine
end

