-- ==== Sys2Proof/Machine/PortOps.lean ====
section
/-! DEFINITION. The Port Table (ch. 01): link-up and link-down events, absence, and role changes; and the
changes of the runtime policy that act at once (R17, R99). -/

namespace Sys2Proof.Machine

/-- The entries of the LET in which a port is egress or ingress (R70, R71). -/
def involves (p : Port) (e : LetEntry) : Bool := decide (e.egress = p) || decide (e.ingress = p)

/-- A link-up event (R5, R150). -/
def linkUpEvent (p : Port) (s : State) : State :=
  let t := (wake .linkUp p s).modPort p fun r => { r with linkUp := true }
  let u := { t with order := appendOrder p t.order }
  if (u.port p).guard = .down then goPlain p .listen .linkUp u else u

/-- A link-down event (R6).  `g` and `c` are DOWN and LINK-DOWN, or DISABLED and ABSENT when the event is
taken at the absence of the port (R7).  A port in DISABLED stays there without a record.  R6 leaves the order of its
steps 3 to 5 open: the OPT is scanned before the LET, which is the model's choice (DESIGN CHOICE, log entry 27). -/
def linkDownTo (g : GuardState) (c : StateCause) (p : Port) (s : State) : State :=
  let s1 := s.modPort p fun r => { r with linkUp := false }
  let s2 := { s1 with order := removeOrder p s1.order }
  let s3 := if (s2.port p).guard = .disabled ∨ (s2.port p).guard = g then s2 else goPlain p g c s2
  let s4 := s3.modPort p (meterReset (s3.rowAt p).bmax)
  withdraw (involves p) (dropProbe p (removeProbes p s4))

/-- A link-down event of a port (R6). -/
def linkDownEvent (p : Port) (s : State) : State := linkDownTo .down .linkDown p s

/-- A report of a port's link, from a LINK record or from the link status of an ACK: a link event when the
port is present and the report differs from the flag (R3, R4). -/
def linkReport (p : Port) (up : Bool) (s : State) : State :=
  if (s.port p).present = true ∧ (s.port p).linkUp ≠ up then
    (if up then linkUpEvent p s else linkDownEvent p s)
  else s

/-- A port becomes absent: the arbiter's part (R130), and the Port Table's (R7). -/
def absence (p : Port) (s : State) : State :=
  let t := s.modPort p fun r =>
    { r with
      confirmed := none
      inFlight := none
      present := false
      pendingFlag := false
      override := .noOverride }.deriveWanted
  if (s.port p).linkUp then linkDownTo .disabled .absent p t
  else if (s.port p).guard = .disabled then t
  else goPlain p .disabled .absent t

/-- Step 1 of a role change for one changed port: the role field, and for a present port the guard state
of R11 (R10, R14). -/
def roleStep1 (new : Role) (p : Port) (s : State) : State :=
  let r := s.port p
  let t := s.modPort p fun x => { x with role := new }
  if r.present = false then t
  else if new = .unused then (if r.guard = .disabled then t else goPlain p .disabled .role t)
  else if r.role = .unused then goPlain p (if r.linkUp then .listen else .down) .role t
  else if r.role = .access ∧ r.guard = .blocked then goPlain p .listen .role t
  else t

/-- Step 2 of a role change for one changed port: evidence, probes, override, meter (R10, R12, R13).  R12 gives its
cleanups no order: the LET is scanned, with its evidence-gone check and its sweep, before the OPT, which is the model's
choice (DESIGN CHOICE, log entry 27). -/
def roleStep2 (old new : Role) (p : Port) (s : State) : State :=
  let s1 := removeProbes p (withdraw (involves p) s)
  let s2 := if new = .uplink ∨ new = .unused then dropProbe p s1 else s1
  (s2.modPort p fun r => { r with override := .noOverride }.deriveWanted).modPort p
    (meterRole s2.control.policy old new)

/-- The ports whose new role differs from the role they hold, in ascending order, with the old role (R10). -/
def changedPorts (table : Port → Role) (s : State) : List (Port × Role) :=
  (allPorts.filter fun p => decide (table p ≠ (s.port p).role)).map fun p => (p, (s.port p).role)

/-- A role change in the two steps of R10. -/
def roleChange (table : Port → Role) (s : State) : State :=
  let ch := changedPorts table s
  ch.foldl (fun t x => roleStep2 x.2 (table x.1) x.1 t) (ch.foldl (fun t x => roleStep1 (table x.1) x.1 t) s)

/-- A port's credit and hold when the policy changes: a lowered Bmax clamps the credits of its role (R17),
a lowered tHOLD0 clamps the holds (R99). -/
def clampRec (old new : Policy) (r : PortRec) : PortRec :=
  { r with
    creditB :=
      if (new.rowOf r.role).bmax < (old.rowOf r.role).bmax then min r.creditB (new.rowOf r.role).bmax
      else r.creditB
    hold := if new.tHOLD0 < old.tHOLD0 then min r.hold (32 * new.tHOLD0) else r.hold }

/-- The runtime policy takes new values, with the effects that act at once (R17, R99, R161 step 3). -/
def applyPolicy (q : Policy) (s : State) : State :=
  let t := s.mapPorts fun _ r => clampRec s.control.policy q r
  { t with control := { t.control with policy := q } }

end Sys2Proof.Machine
end

