-- ==== Sys2Proof/Machine/ArbiterOps.lean ====
section
/-! DEFINITION. The Command Arbiter (ch. 07) and the Guard Link Interface's timing and link state (R112 to
R117): the choice of a grant, the grants, the ends of a command, and the two changes of the link state. -/

namespace Sys2Proof.Machine

/-- A grant is possible at all: the roles are applied, no command is outstanding, and pacing allows it
(R122, R125). -/
def canGrant (s : State) : Bool :=
  !s.control.loading && s.glink.outstanding.isNone && (!s.arbiter.pacing || s.arbiter.allowance)

/-- The search order: from the port after the pointer, wrapping, to the pointer's own port (R126). -/
def searchOrder (pointer : Port) : List Port := (List.finRange 28).map fun k => pointer + 1 + k

/-- The first port of a class in the search order (R126). -/
def search (c : SetportClass) (s : State) : Option Port :=
  (searchOrder s.arbiter.pointer).find? fun p => decide (classOf (s.port p) = some c)

/-- What the arbiter grants next. -/
inductive Grant
  | setport (port : Port)
  | probe (port : Port)
  deriving DecidableEq, Repr

/-- The grant of R125: a tightening SETPORT, then the head of the pending probe list, then a loosening
SETPORT. -/
def nextGrant (s : State) : Option Grant :=
  if canGrant s then
    match search .tightening s, s.probe.list, search .loosening s with
    | some p, _, _ => some (.setport p)
    | none, q :: _, _ => some (.probe q)
    | none, [], some p => some (.setport p)
    | none, [], none => none
  else none

/-- A sent command takes the pacing allowance (R127 step 4, R128). -/
def useAllowance (a : Arbiter) : Arbiter := if a.pacing then { a with allowance := false } else a

/-- A grant of a SETPORT for a port (R127). -/
def grantSetport (p : Port) (s : State) : State :=
  let w := (s.port p).wanted
  let t := s.modPort p fun r => { r with inFlight := some w }.recompute
  handTx (.setport p w)
    { t with
      arbiter := useAllowance { t.arbiter with pointer := p }
      glink := { t.glink with outstanding := some ⟨.setport s.arbiter.pointer, p, false⟩ } }

/-- The current round number; a probe is granted only once a round has started (R38, R44). -/
def State.roundNow (s : State) : Round := s.clock.round.getD 0

/-- A grant of the probe class for the head of the list: an entry and an INJECT, or a skipped probe when
the OPT is full (R44, R128). -/
def grantProbe (p : Port) (s : State) : State :=
  let t := { s with probe := { s.probe with list := s.probe.list.tail } }
  match freeOpt t with
  | none => skipProbe t
  | some i =>
    let u := writeOpt i ⟨t.roundNow, p, .sending, [], true⟩ t
    handTx (.inject p t.roundNow t.identity)
      { u with
        arbiter := useAllowance u.arbiter
        glink := { u.glink with outstanding := some ⟨.inject t.roundNow, p, false⟩ } }

/-- The last bit of a command has been sent: its ACK timer starts, and a waiting record begins (R110,
R112). -/
def commandSent (s : State) : State :=
  { s with
    glink :=
      { s.glink with
        outstanding := s.glink.outstanding.map fun o => { o with timerRunning := true }
        sending := s.glink.waiting
        waiting := none } }

/-- The last bit of a STROBE has been sent (R110). -/
def strobeSent (s : State) : State :=
  { s with glink := { s.glink with sending := s.glink.waiting, waiting := none } }

/-- No command is outstanding any more; its timer stops (R113, R114). -/
def endCommand (s : State) : State := { s with glink := { s.glink with outstanding := none } }

/-- Every ACK that passes the checks returns both timeout values to 0 (R113, R133). -/
def ackSeen (s : State) : State := { s with arbiter := { s.arbiter with consecutive := 0, faultRun := 0 } }

/-- ACK OK to a SETPORT, at the arbiter (R129): the value sent is the in-flight marker. -/
def setportConfirmed (p : Port) (s : State) : State :=
  s.modPort p fun r =>
    { r with
      confirmed := match r.inFlight with
        | some w => some w
        | none => r.confirmed
      inFlight := none }.recompute

/-- A port leaves the start-sweep set (R143). -/
def leaveSweep (p : Port) (s : State) : State :=
  { s with control := { s.control with sweep := s.control.sweep.filter fun q => decide (q ≠ p) } }

/-- A timed-out SETPORT, at the arbiter (R132). -/
def setportTimedOut (p previous : Port) (s : State) : State :=
  let t := s.modPort p fun r => { r with confirmed := none, inFlight := none }.recompute
  { t with arbiter := { t.arbiter with pointer := previous } }

/-- The link becomes UNRESPONSIVE: LINKFAULT down, then the arbiter's part (R134) and the Probe Unit's
(R51, R116). -/
def linkFails (p : Port) (k : CommandKind) (s : State) : State :=
  let t := report (.linkFaultDown p k) s
  let u := t.mapPorts fun _ r => { r with confirmed := none, pendingFlag := r.present }
  { u with
    glink := { u.glink with state := .unresponsive }
    arbiter := { u.arbiter with pacing := true, allowance := false }
    probe := { u.probe with list := [], opt := Vector.replicate 32 none } }

/-- A timeout counted by the arbiter (R132, R133). -/
def countTimeout (s : State) : State :=
  { s with
    arbiter :=
      { s.arbiter with
        consecutive := satInc s.arbiter.consecutive
        faultRun := min Config.faultRunMax (s.arbiter.faultRun + 1) } }

/-- The link state is judged after a timeout (R116, R133). -/
def judgeLink (p : Port) (k : CommandKind) (s : State) : State :=
  if s.glink.state = .up ∧ s.arbiter.faultRun = Config.faultRunMax then linkFails p k s else s

/-- The kind of an outstanding command. -/
def OutstandingKind.command : OutstandingKind → CommandKind
  | .setport _ => .setport
  | .inject _ => .inject

/-- The outstanding command ends in a timeout (R114, R132, R133). -/
def commandTimeout (o : Outstanding) (s : State) : State :=
  let t := endCommand { s with glink := { s.glink with ackTimeouts := satInc s.glink.ackTimeouts } }
  let u :=
    match o.kind with
    | .setport previous => setportTimedOut o.port previous t
    | .inject r => probeEnded r o.port t
  judgeLink o.port o.kind.command (countTimeout u)

/-- The link returns to UP at a valid record (R117, R136). -/
def linkReturns (f : PortField) (k : InboundKind) (s : State) : State :=
  if s.glink.state = .unresponsive then
    let t := report (.linkFaultUp f k) s
    { t with
      glink := { t.glink with state := .up }
      arbiter := { t.arbiter with pacing := false, allowance := false, faultRun := 0 } }
  else s

end Sys2Proof.Machine
end

