-- ==== Sys2Proof/Machine/ModeOps.lean ====
section
/-! DEFINITION. The Mode Unit and the Settings Store (ch. 08, ch. 11): reading the two areas, the entry into
AUTONOMOUS, the end of START, the resets, the load, and the writes. -/

namespace Sys2Proof.Machine

/-- The Policy area as a read finds it: the read image while it is being written (R177). -/
def SettingsStore.policyImage (u : SettingsStore) : Area Policy :=
  match u.write with
  | some (.policy _ image) => image
  | _ => u.policyArea

/-- The Role area as a read finds it (R177). -/
def SettingsStore.roleImage (u : SettingsStore) : Area (Vector Role 28) :=
  match u.write with
  | some (.roles _ image) => image
  | _ => u.roleArea

/-- A read of the Policy area: its contents put within their ranges if it passes, the factory values if it
fails (R176). -/
def SettingsStore.readPolicy (u : SettingsStore) : Policy :=
  if u.policyImage.passes policyCheck then u.policyImage.contents.settle else factoryPolicy

/-- A read of the Role area (R176). -/
def SettingsStore.readRoles (u : SettingsStore) : Vector Role 28 :=
  if u.roleImage.passes roleCheck then u.roleImage.contents else factoryRoles

/-- Validity as a judgement of the check. -/
def validityOf (passes : Bool) : Validity := if passes then .valid else .invalid

/-- Every override becomes NONE and every wanted state is derived afresh (R103, R147 step 2). -/
def clearOverrides (s : State) : State :=
  s.mapPorts fun _ r => { r with override := .noOverride }.deriveWanted

/-- An entry into AUTONOMOUS (R147). -/
def enterAutonomous (c : ModeCause) (s : State) : State :=
  let t := clearOverrides (setMode .autonomous c s)
  let u := applyPolicy t.settings.readPolicy t
  roleChange (fun p => u.settings.readRoles.get p) u

/-- The end of START (R144): the boot mode, the running interval and the opening STROBE, the first round. -/
def startDone (s : State) : State :=
  let t :=
    if s.control.policy.bootManaged then setMode .managed .startDone s else enterAutonomous .startDone s
  roundSteps
    (handTx (.strobe 0) { t with clock := { t.clock with length := some t.control.policy.tIVL } })

/-- A host-lost count that has reached tHOST takes the part from MANAGED to AUTONOMOUS (R148). -/
def hostLostEnds (s : State) : State :=
  if s.control.hostLostDue ∧ s.control.mode = .managed then enterAutonomous .hostLost s else s

/-- Any of the three resets: all volatile state takes its value for after any reset, the areas, the
identity and the pins are kept, and BAUD is read (R140, R141, R152, R179). -/
def resetTo (c : ResetCause) (baud : Bool) (s : State) : State :=
  { State.reset with
    control := { State.reset.control with resetCause := c }
    mgmt := { State.reset.mgmt with fast := baud }
    settings :=
      { s.settings with policyValidity := .notLoaded, roleValidity := .notLoaded, write := none }
    identity := s.identity
    key := s.key
    pending := s.pending }

/-- The end of the Settings Store load (R142, R1, R139). -/
def loadDone (s : State) : State :=
  let q := s.settings.readPolicy
  { s with
    ports := startPorts q s.settings.readRoles
    control := { s.control with policy := q, sweep := allPorts, loading := false }
    settings :=
      { s.settings with
        policyValidity := validityOf (s.settings.policyImage.passes policyCheck)
        roleValidity := validityOf (s.settings.roleImage.passes roleCheck) } }

/-- The runtime role table (R139). -/
def State.roleTable (s : State) : Vector Role 28 := Vector.ofFn fun p => (s.port p).role

/-- A write of an area starts: the buffer takes the runtime values, the read image the old area, and the
area itself is partly written from then on (R177). -/
def startWrite (a : AreaName) (s : State) : State :=
  let u := s.settings
  match a with
  | .policy =>
    { s with
      settings :=
        { u with
          policyArea := { u.policyArea with whole := false }
          write := some (.policy s.control.policy u.policyArea) } }
  | .roles =>
    { s with
      settings :=
        { u with
          roleArea := { u.roleArea with whole := false }
          write := some (.roles s.roleTable u.roleArea) } }

/-- The result of a read-back (R177). -/
def readBack (passes : Bool) : StoredResult := if passes then .done else .invalidAfterReset

/-- The end of tWR: the area holds the buffer, and passes when the cells took it (R177). -/
def writeEnds (took : Bool) (s : State) : State :=
  let u := s.settings
  match u.write with
  | none => s
  | some (.policy buffer _) =>
    let area : Area Policy := { Area.written policyCheck buffer with whole := took }
    report (.stored .policy (readBack (area.passes policyCheck)))
      { s with
        settings :=
          { u with policyArea := area, write := none, policyValidity := validityOf (area.passes policyCheck) } }
  | some (.roles buffer _) =>
    let area : Area (Vector Role 28) := { Area.written roleCheck buffer with whole := took }
    report (.stored .roles (readBack (area.passes roleCheck)))
      { s with
        settings :=
          { u with roleArea := area, write := none, roleValidity := validityOf (area.passes roleCheck) } }

/-- A fall of KEY: a write of the Role area is abandoned, its area left partly written (R178). -/
def keyFalls (s : State) : State :=
  let t := { s with key := false }
  match s.settings.write with
  | some (.roles _ _) =>
    report (.stored .roles .abandoned)
      { t with settings := { t.settings with write := none, roleValidity := .invalid } }
  | _ => t

/-- KEY as a request reads it.  A level lower than the last one sampled shows a fall of KEY that has come
in between, and a higher one a rise, which has no effect on the store (R178; log entry 4). -/
def sampleKey (level : Bool) (s : State) : State :=
  if s.key ∧ level = false then keyFalls s else { s with key := level }

end Sys2Proof.Machine
end

