-- ==== Sys2Proof/Machine/ClockOps.lean ====
section
/-! DEFINITION. The interval event (R18, R21, R39, R104, R135, R148) and the steps that fall due at it.  The
table lists PROBE_EXPIRY, ROUND_START, THROTTLE_HOLD_EXPIRY, HOLD_EXPIRY, STRIKE_DECAY and HOST_LOST as
steps of their own: the interval event counts and marks them due, and each step then judges.  A later
step that the spec places after them first takes those still due (log entry 5). -/

namespace Sys2Proof.Machine

/-- The effective length of the round in progress (R39). -/
def effectiveLength (s : State) : Option Nat :=
  s.clock.base.map fun b => if s.control.mode = .rest then min (10 * b) Config.restRoundMax else b

/-- The timer has reached the effective length (R39). -/
def roundIsDue (timer : Nat) (length : Option Nat) : Bool :=
  match length with
  | some n => decide (n ≤ timer)
  | none => false

/-- The Port Guard's part of an interval event on one record: it counts, and marks what has come to its
end (R92, R96, R101, R104). -/
def tickRec (tDECAY : Nat) (r : PortRec) : PortRec :=
  match r.guard with
  | .blocked =>
    if 0 < r.hold then { r with hold := r.hold - 1, holdDue := decide (r.hold = 1) } else r
  | .throttle =>
    if 0 < r.throttleHold then
      { r with throttleHold := r.throttleHold - 1, throttleDue := decide (r.throttleHold = 1) }
    else r
  | .forward => { r with decay := r.decay + 1, decayDue := decide (tDECAY ≤ r.decay + 1) }
  | .down => r
  | .listen => r
  | .suspect => r
  | .disabled => r

/-- A round start that comes at an interval event, if one is due (R40, R86). -/
def takeRound (s : State) : State := if s.clock.roundDue then uplinkBook (roundSteps s) else s

/-- The judgements of one port that are still due. -/
def portEnds (p : Port) (s : State) : State := decayEnds p (holdEnds p (throttleEnds p s))

/-- The judgements still due of the ports below a port, in ascending port order (R80). -/
def lowerPortsEnd (p : Port) (s : State) : State :=
  (allPorts.filter fun q => decide (q < p)).foldl (fun t q => portEnds q t) s

/-- A STROBE that is still being sent, or waits, has been sent: an interval is far longer than a record
(R110). -/
def strobesSent (s : State) : State :=
  match s.glink.sending with
  | some (.strobe _) => strobeSent s
  | some (.setport _ _) =>
    (match s.glink.waiting with
    | some (.strobe _) => strobeSent (commandSent s)
    | _ => s)
  | some (.inject _ _ _) =>
    (match s.glink.waiting with
    | some (.strobe _) => strobeSent (commandSent s)
    | _ => s)
  | none => s

/-- Everything still due of the last interval event is taken: expiries, then the round start, then the
ports' judgements in ascending order, then the fall to AUTONOMOUS. -/
def settleInterval (s : State) : State :=
  let t := takeRound (expireDue s)
  strobesSent (hostLostEnds (allPorts.foldl (fun u p => portEnds p u) t))

/-- The Interval Clock's part: stamp, length of the interval that begins, round timer (R18, R39). -/
def clockTick (s : State) : State :=
  let n := s.clock.timer + 1
  { s with
    clock :=
      { s.clock with
        stamp := s.clock.stamp + 1
        length := some s.control.policy.tIVL
        timer := n
        roundDue := roundIsDue n (effectiveLength s) } }

/-- The pacing allowance of an interval event (R135). -/
def paceTick (s : State) : State :=
  if s.arbiter.pacing then { s with arbiter := { s.arbiter with allowance := true } } else s

/-- The host-lost count's part of an interval event (R148). -/
def hostTick (s : State) : State :=
  if s.control.mode = .managed then
    { s with
      control :=
        { s.control with
          hostLost := s.control.hostLost + 1
          hostLostDue := decide (s.control.policy.tHOST ≤ s.control.hostLost + 1) } }
  else s

/-- An interval event on a state with nothing left due (R18, R21, R111, R135, R39, R53, R104, R148).  The scan of the OPT
is done before any expiry it brings, and so are its TRAP records (DESIGN CHOICE, log entry 28). -/
def intervalTick (s : State) : State :=
  let t := meterInterval (clockTick s)
  let u := paceTick (handTx (.strobe (t.clock.stamp.setWidth 8)) t)
  let v := readOpt u
  hostTick (v.mapPorts fun _ r => tickRec v.control.policy.tDECAY r)

end Sys2Proof.Machine
end

