-- ==== Sys2Proof/Machine/LineOps.lean ====
section
/-! DEFINITION. The Management Line Interface (ch. 09): the character receiver, the outcomes of R154, the reply
line and its REJECT slot (R155), the service table of the modes (R145), and the path every request takes
(R156). -/

namespace Sys2Proof.Machine

/-- A REJECT that becomes owed (R155). -/
def oweReject (r : Reject) (s : State) : State :=
  match s.mgmt.line, s.mgmt.reject with
  | .idle, _ => { s with mgmt := { s.mgmt with line := .sending (rejectBody r) } }
  | _, none => { s with mgmt := { s.mgmt with reject := some r } }
  | _, some _ => s

/-- A frame cut short by a gap or a framing fault (R153). -/
def frameTruncated (s : State) : State :=
  oweReject .trunc { s with mgmt := { s.mgmt with rx := .hunt, truncated := satInc s.mgmt.truncated } }

/-- A complete frame whose check fails (R154). -/
def frameCheckFails (s : State) : State :=
  oweReject .check { s with mgmt := { s.mgmt with checkFails := satInc s.mgmt.checkFails } }

/-- A checked frame that cannot be taken (R154). -/
def frameBusy (kind : Byte) (s : State) : State :=
  oweReject (.busy kind) { s with mgmt := { s.mgmt with busy := satInc s.mgmt.busy } }

/-- The reply line is IDLE and the REJECT slot empty, so a checked frame is taken (R154). -/
def lineFree (s : State) : Bool := decide (s.mgmt.line = .idle) && s.mgmt.reject.isNone

/-- A checked frame is taken as a request: the line becomes OWED, and the host-lost count returns to 0
(R148, R154).  A fall to AUTONOMOUS that is due at the last interval event comes first (R148). -/
def takeFrame (body : List Byte) (s : State) : State :=
  let t := hostLostEnds s
  { t with
    mgmt := { t.mgmt with line := .owed body }
    control := { t.control with hostLost := 0, hostLostDue := false } }

/-- The kind byte of a BODY (ch. 12). -/
def kindOf (body : List Byte) : Byte := body.headD 0

/-- A character at the receiver (R153). -/
def receiveChar (b : Byte) (fault : Bool) (s : State) : State :=
  match s.mgmt.rx with
  | .hunt =>
    if fault = false ∧ b = Config.syncByte then { s with mgmt := { s.mgmt with rx := .len } } else s
  | .len =>
    if fault then frameTruncated s
    else if 1 ≤ b.toNat ∧ b.toNat ≤ Config.bodyMax then
      { s with mgmt := { s.mgmt with rx := .body b.toNat [] } }
    else { s with mgmt := { s.mgmt with rx := .hunt, badLength := satInc s.mgmt.badLength } }
  | .body n got =>
    if fault then frameTruncated s
    else if n ≤ got.length + 1 then { s with mgmt := { s.mgmt with rx := .check (got ++ [b]) none } }
    else { s with mgmt := { s.mgmt with rx := .body n (got ++ [b]) } }
  | .check body none =>
    if fault then frameTruncated s else { s with mgmt := { s.mgmt with rx := .check body (some b) } }
  | .check body (some hi) =>
    if fault then frameTruncated s
    else { s with mgmt := { s.mgmt with rx := .hunt, complete := some ⟨body, hi ++ b⟩ } }

/-- A whole frame with this BODY can arrive at this step: LEN can carry it, and the receiver hunts with no
complete frame before it (log entry 3). -/
def frameArrives (body : List Byte) (s : State) : Bool :=
  decide (1 ≤ body.length) && decide (body.length ≤ Config.bodyMax) && decide (s.mgmt.rx = .hunt) &&
    s.mgmt.complete.isNone

/-! ### Requests -/

/-- The requests of ch. 12. -/
inductive RequestKind
  | stat | portq | fetch | ackgap | trapclr | mode | setp | roles | ovrd | lesson | store | watch | extend
  | unwatch | reset
  deriving DecidableEq, Repr

def RequestKind.code : RequestKind → Byte
  | .stat => 0x01
  | .portq => 0x02
  | .fetch => 0x03
  | .ackgap => 0x04
  | .trapclr => 0x05
  | .mode => 0x06
  | .setp => 0x07
  | .roles => 0x08
  | .ovrd => 0x09
  | .lesson => 0x0A
  | .store => 0x0B
  | .watch => 0x0C
  | .extend => 0x0D
  | .unwatch => 0x0E
  | .reset => 0x0F

/-- The request a kind byte names, if it names one (ch. 12). -/
def RequestKind.ofCode (kind : Byte) : Option RequestKind :=
  [RequestKind.stat, .portq, .fetch, .ackgap, .trapclr, .mode, .setp, .roles, .ovrd, .lesson, .store, .watch, .extend,
    .unwatch, .reset].find? fun k => decide (k.code = kind)

/-- The kind byte names a request (ch. 12): 0x01 to 0x0F. -/
def namesRequest (kind : Byte) : Bool := decide (1 ≤ kind.toNat) && decide (kind.toNat ≤ 15)

/-- The requests each mode serves (R145). -/
def Mode.serves (m : Mode) (k : RequestKind) : Bool :=
  match k with
  | .stat => true
  | .portq => decide (m ≠ .start)
  | .fetch => decide (m ≠ .start)
  | .ackgap => decide (m ≠ .start)
  | .trapclr => decide (m ≠ .start)
  | .mode => decide (m ≠ .start)
  | .lesson => decide (m ≠ .start)
  | .reset => decide (m ≠ .start)
  | .watch => decide (m = .autonomous) || decide (m = .managed)
  | .extend => decide (m = .autonomous) || decide (m = .managed)
  | .unwatch => decide (m = .autonomous) || decide (m = .managed)
  | .setp => decide (m = .managed)
  | .roles => decide (m = .managed)
  | .ovrd => decide (m = .managed)
  | .store => decide (m = .managed)

/-- What an owning block answers: the state after the action, the result, and the reply's fields. -/
structure Answer where
  state : State
  result : Result
  fields : List Byte

/-- A refusal: the head alone, and no further effect (R156). -/
def refuse (r : Result) (s : State) : Answer := ⟨s, r, []⟩

/-- The reply goes out: reply kind, result, fields (R155, R156, ch. 12). -/
def sendReply (kind : Byte) (a : Answer) : State :=
  { a.state with
    mgmt := { a.state.mgmt with line := .sending ((kind + 0x80) :: a.result.code :: a.fields) } }

/-- A request the mode does not serve is refused with STATE before any other check (R145, R156). -/
def ifServed (k : RequestKind) (act : State → Answer) (s : State) : Answer :=
  if s.control.mode.serves k then act s else refuse .state s

/-- A request frame that arrives whole with a good check.  Taken, it is carried out at that moment and its reply
sent; at a line that is not free it is refused as busy (R154 to R156). -/
def request (kind : Byte) (fields : List Byte) (act : State → Answer) (s : State) : State :=
  if frameArrives (kind :: fields) s then
    (if lineFree s then sendReply kind (act (takeFrame (kind :: fields) s)) else frameBusy kind s)
  else s

end Sys2Proof.Machine
end

