-- ==== Sys2Proof/Machine/Channel.lean ====
section
/-! DEFINITION. Meanings of the command channel's steps: grants, last bits and the ACK timeout (ch. 06,
ch. 07). -/

namespace Sys2Proof.Machine

/-- ACK_TIMEOUT: the ACK timer reaches tACK with the command outstanding (R114). -/
def execAckTimeout (s : State) : Host.Outcome State Fault Refusal :=
  .next
    (match s.glink.outstanding with
     | some o => if o.timerRunning then commandTimeout o s else s
     | none => s)

/-- SETPORT: the arbiter's grant, when R125's choice is a SETPORT (R127). -/
def execSetport (s : State) : Host.Outcome State Fault Refusal :=
  .next
    (match nextGrant s with
     | some (.setport p) => grantSetport p s
     | some (.probe _) => s
     | none => s)

/-- INJECT: the arbiter's grant, when R125's choice is the probe class (R44, R128). -/
def execInject (s : State) : Host.Outcome State Fault Refusal :=
  .next
    (match nextGrant s with
     | some (.probe p) => grantProbe p s
     | some (.setport _) => s
     | none => s)

/-- COMMAND_LAST_BIT: the last bit of the command being sent (R110, R112). -/
def execCommandLastBit (s : State) : Host.Outcome State Fault Refusal :=
  .next
    (match s.glink.sending with
     | some (.setport _ _) => commandSent s
     | some (.inject _ _ _) => commandSent s
     | some (.strobe _) => s
     | none => s)

/-- STROBE_LAST_BIT: the last bit of the STROBE being sent (R110). -/
def execStrobeLastBit (s : State) : Host.Outcome State Fault Refusal :=
  .next
    (match s.glink.sending with
     | some (.strobe _) => strobeSent s
     | some (.setport _ _) => s
     | some (.inject _ _ _) => s
     | none => s)

end Sys2Proof.Machine
end

