-- ==== Sys2Proof/Machine/Clock.lean ====
section
/-! DEFINITION. Meanings of the interval event and of the steps that fall due at it. -/

namespace Sys2Proof.Machine

/-- INTERVAL_EVENT: no interval event comes during START (R18, R143); what the last one left due comes
first. -/
def execIntervalEvent (s : State) : Host.Outcome State Fault Refusal :=
  .next (if s.control.mode = .start then s else intervalTick (settleInterval s))

/-- ROUND_START: when the round timer has reached the effective length (R39, R40); due expiries come first
(R50). -/
def execRoundStart (s : State) : Host.Outcome State Fault Refusal :=
  .next (if s.clock.roundDue then takeRound (expireDue s) else s)

/-- PROBE_EXPIRY: the first due entry in R50's order expires. -/
def execProbeExpiry (s : State) : Host.Outcome State Fault Refusal :=
  .next
    (match dueSlots s with
     | [] => s
     | i :: _ => expireSlot i s)

/-- THROTTLE_HOLD_EXPIRY: the judgement of a throttle hold that has reached 0 (R92). -/
def execThrottleHoldExpiry (p : Port) (s : State) : Host.Outcome State Fault Refusal :=
  .next (if (s.port p).throttleDue then throttleEnds p (lowerPortsEnd p s) else s)

/-- HOLD_EXPIRY: the judgement of a hold that has reached 0 (R96). -/
def execHoldExpiry (p : Port) (s : State) : Host.Outcome State Fault Refusal :=
  .next (if (s.port p).holdDue then holdEnds p (lowerPortsEnd p s) else s)

/-- STRIKE_DECAY: a decay count that has reached tDECAY (R101). -/
def execStrikeDecay (p : Port) (s : State) : Host.Outcome State Fault Refusal := .next (decayEnds p s)

/-- HOST_LOST: a host-lost count that has reached tHOST in MANAGED (R148). -/
def execHostLost (s : State) : Host.Outcome State Fault Refusal := .next (hostLostEnds s)

end Sys2Proof.Machine
end

