-- ==== Sys2Proof/Decode.lean ====
section
/-! DEFINITION. Reading inbound Guard Link records (R107, R182), the encoder beside it, and the decoder
over the opcode table.  The table gives no row any bits, so no word of the table spells a command. -/

namespace Sys2Proof

/-- Link and link status codes: 01 up, 10 down; the other two name nothing (ch. 12). -/
def linkOfCode (c : BitVec 2) : Option Bool :=
  if c = 1 then some true else if c = 2 then some false else none

/-- Result codes of an ACK: 01 OK, 10 REFUSED. -/
def resultOfCode (c : BitVec 2) : Option Bool := linkOfCode c

/-- The code of a link status, a link or a result. -/
def codeOf (b : Bool) : BitVec 2 := if b then 1 else 2

/-- The command that a complete inbound record is; none for an unknown kind or an unnamed code (R107). -/
def decodeRecord (w : Record) : Option Instr :=
  let kind : BitVec 8 := w.extractLsb' 56 8
  let port : PortField := w.extractLsb' 51 5
  if kind = 0x11 then some (.digest port (w.extractLsb' 40 8) (w.extractLsb' 24 16))
  else if kind = 0x12 then
    some (.catchRecord port (w.extractLsb' 46 5) (w.extractLsb' 34 12) (w.extractLsb' 2 32))
  else if kind = 0x13 then (linkOfCode (w.extractLsb' 49 2)).map fun up => .link port up
  else if kind = 0x14 then
    match resultOfCode (w.extractLsb' 49 2), linkOfCode (w.extractLsb' 47 2) with
    | some ok, some up => some (.ack port ok up)
    | _, _ => none
  else none

/-- The command that the arrival of a complete inbound record is (R107). -/
def recordCommand (w : Record) : Instr := (decodeRecord w).getD (.unknownRecord w)

/-- The record of an inbound command, every bit given to no field 0 (ch. 12, R182). -/
def encodeRecord : Instr → Option Record
  | .digest p st f => some (0x11#8 ++ p ++ 0#3 ++ st ++ f ++ 0#24)
  | .catchRecord y x r ident => some (0x12#8 ++ y ++ x ++ r ++ ident ++ 0#2)
  | .link p up => some (0x13#8 ++ p ++ codeOf up ++ 0#49)
  | .ack p ok up => some (0x14#8 ++ p ++ codeOf ok ++ codeOf up ++ 0#47)
  | _ => none

/-- The command a word of the opcode table spells.  No row of spec/opcode_table.json gives bits. -/
def decodeTableWord (_nbits _w : Nat) : Option Instr := none

end Sys2Proof
end

