-- ==== Sys2Proof/Machine/Inbound.lean ====
section
/-! DEFINITION. Meanings of the inbound Guard Link records and the receiver's own events (ch. 06). -/

namespace Sys2Proof.Machine

/-- One rising edge of GLCK at the receiver (R106).  At the 64th bit the record is complete and the receiver returns
to HUNT. -/
def rxClock (rx : LinkRx) (glfi gldi : Bool) : RxResult :=
  match rx with
  | .hunt => ⟨if glfi then .receiving [] else .hunt, 0, []⟩
  | .receiving bits =>
    if glfi then ⟨.receiving [], if 1 ≤ bits.length then 1 else 0, []⟩
    else if 64 ≤ bits.length + 1 then ⟨.hunt, 0, [recordOfBits (bits ++ [gldi])]⟩
    else ⟨.receiving (bits ++ [gldi]), 0, []⟩

/-- The receiver over successive clocks, each with the levels of GLFI and GLDI.  A completed record is the command
`recordCommand` (R106, R107). -/
def rxRun (rx : LinkRx) (clocks : List (Bool × Bool)) : RxResult :=
  clocks.foldl
    (fun a c =>
      let b := rxClock a.rx c.1 c.2
      ⟨b.rx, a.truncated + b.truncated, a.records ++ b.records⟩)
    ⟨rx, 0, []⟩

/-- The clocks of a record cut short: a sync, some data bits and an early sync (R106). -/
def cutClocks (bits : List Bool) : List (Bool × Bool) :=
  (true, false) :: bits.map (fun b => (false, b)) ++ [(true, false)]

/-- A complete record leaves the receiver in HUNT (R106). -/
def recordDone (s : State) : State := { s with glink := { s.glink with rx := .hunt } }

/-- A valid inbound record: discarded while the Settings Store loads; otherwise it first returns an
UNRESPONSIVE link to UP, and is then disposed of (R108, R117).  An ACK that answers a command forgotten at a reset and
comes before the end of the load is not counted (R108), although R120 counts it as stray: the model's choice between the
two (DESIGN CHOICE, log entry 25). -/
def inbound (k : InboundKind) (f : PortField) (act : State → State) (s : State) : State :=
  if s.control.loading then recordDone s else act (linkReturns f k (recordDone s))

/-- A DIGEST or LINK naming a port from 28 to 31 (R108). -/
def badPort (s : State) : State := { s with glink := { s.glink with badPorts := satInc s.glink.badPorts } }

/-- DIGEST (R22, R108). -/
def execDigest (f : PortField) (stamp : Byte) (n : BitVec 16) (s : State) : Host.Outcome State Fault Refusal :=
  .next
    (inbound .digest f
      (fun t =>
        match portOf f with
        | some p => digestAtMeter p stamp n.toNat t
        | none => badPort t)
      s)

/-- CATCH (R47, R108). -/
def execCatch (y x : PortField) (r : Round) (ident : Identity) (s : State) : Host.Outcome State Fault Refusal :=
  .next (inbound .catchRecord y (catchAtProbe y x r ident) s)

/-- LINK (R3, R108). -/
def execLink (f : PortField) (up : Bool) (s : State) : Host.Outcome State Fault Refusal :=
  .next
    (inbound .link f
      (fun t =>
        match portOf f with
        | some p => linkReport p up t
        | none => badPort t)
      s)

/-- An ACK that ends no command (R113). -/
def strayAck (s : State) : State := { s with glink := { s.glink with strayAcks := satInc s.glink.strayAcks } }

/-- The sweep of START: the port has answered, and the last answer ends START (R143, R144). -/
def sweepAnswered (p : Port) (s : State) : State :=
  if s.control.mode = .start ∧ p ∈ s.control.sweep then
    (if (leaveSweep p s).control.sweep = [] then startDone (leaveSweep p s) else leaveSweep p s)
  else s

/-- An ACK that ends the command `o`: its result, its link status, and in START the sweep (R4, R45, R46,
R129, R130, R131, R143). -/
def ackEnds (o : Outstanding) (ok up : Bool) (s : State) : State :=
  match o.kind with
  | .setport _ =>
    sweepAnswered o.port
      (if ok then linkReport o.port up (setportConfirmed o.port s) else absence o.port s)
  | .inject r => linkReport o.port up (if ok then probeAcked r o.port s else probeEnded r o.port s)

/-- An ACK is matched by port to the outstanding command, once its last bit has been sent (R113). -/
def ackTaken (f : PortField) (ok up : Bool) (s : State) : State :=
  match s.glink.outstanding with
  | none => strayAck (ackSeen s)
  | some o =>
    if o.timerRunning ∧ portField o.port = f then ackEnds o ok up (endCommand (ackSeen s))
    else strayAck (ackSeen s)

/-- ACK (R113). -/
def execAck (f : PortField) (ok up : Bool) (s : State) : Host.Outcome State Fault Refusal :=
  .next (inbound .ack f (ackTaken f ok up) s)

/-- FRAMING_ERROR: a sync received partway through an inbound record (R106). -/
def execFramingError (bits : List Bool) (s : State) : Host.Outcome State Fault Refusal :=
  .next
    (if 1 ≤ bits.length ∧ bits.length < 64 then
       let r := rxRun s.glink.rx (cutClocks bits)
       { s with
         glink :=
           { s.glink with rx := r.rx, framingErrors := min Config.countMax (s.glink.framingErrors + r.truncated) } }
     else s)

/-- UNKNOWN_RECORD: a complete record of unknown kind or with an unnamed code (R107). -/
def execUnknownRecord (w : Record) (s : State) : Host.Outcome State Fault Refusal :=
  .next
    (if (decodeRecord w).isNone then
       { s with
         glink := { s.glink with rx := .hunt, unknownRecords := satInc s.glink.unknownRecords } }
     else s)

end Sys2Proof.Machine
end

