-- ==== Sys2Proof/Machine/Policy.lean ====
section
/-! DEFINITION. Meanings of the requests and events that write policy, roles, overrides and stored settings:
SETP, ROLES, OVRD, STORE, WRITE_COMPLETION and KEY_FALL (ch. 09, ch. 11). -/

namespace Sys2Proof.Machine

/-! ### SETP -/

/-- Step 1 of SETP: each named value clamped to its own range; a later pair of an identifier wins (R161). -/
def setpOwn (pairs : List (Byte × Param × Nat)) (q : Policy) : Policy :=
  pairs.foldl (fun t x => t.put x.2.1 (x.2.1.clamp x.2.2)) q

/-- The parameters that the cross clamp can change, with their identifiers (R161 step 2). -/
def crossParams : List (Byte × Param) :=
  [(0x14, .row .access .tclear), (0x24, .row .teacher .tclear), (0x34, .row .uplink .tclear), (0x41, .tEXP)]

/-- One pair of a SETP reply: identifier and three-byte value (R181). -/
def pairBytes (q : Policy) (i : Byte) (p : Param) : List Byte := i :: bytesOf 3 (q.get p)

/-- The extra pairs of a SETP reply: parameters that step 2 changed without being named (R161). -/
def extraPairs (pairs : List (Byte × Param × Nat)) (before after : Policy) : List (Byte × Param) :=
  crossParams.filter fun x =>
    decide (after.get x.2 ≠ before.get x.2) && !pairs.any fun y => decide (y.2.1 = x.2)

/-- SETP with its pairs read and named (R161). -/
def setpPairs (pairs : List (Byte × Param × Nat)) (s : State) : Answer :=
  let q1 := setpOwn pairs s.control.policy
  let q2 := q1.crossClamp
  ⟨applyPolicy q2 s, .ok,
    pairs.flatMap (fun x => pairBytes q2 x.1 x.2.1) ++
      (extraPairs pairs q1 q2).flatMap fun x => pairBytes q2 x.1 x.2⟩

/-- The action of SETP (R161, R181). -/
def doSetp (fields : List Byte) (s : State) : Answer :=
  match (parsePairs fields).bind fun l => if 1 ≤ l.length ∧ l.length ≤ 16 then namePairs l else none with
  | some pairs => setpPairs pairs s
  | none => refuse .range s

/-- SETP (R161). -/
def execSetp (fields : List Byte) (s : State) : Host.Outcome State Fault Refusal :=
  .next (request 0x07 fields (ifServed .setp (doSetp fields)) s)

/-! ### ROLES -/

/-- The role table that a ROLES request asks for (R162). -/
def rolesTable (start : Nat) (codes : List Role) (s : State) (p : Port) : Role :=
  if start ≤ p.val then codes.getD (p.val - start) (s.port p).role else (s.port p).role

/-- ROLES with its codes read (R162). -/
def rolesCodes (start : Nat) (codes : List Role) (s : State) : Answer :=
  if s.key = false then refuse .locked s
  else
    ⟨roleChange (rolesTable start codes s) s, .ok,
      [BitVec.ofNat 8 (changedPorts (rolesTable start codes s) s).length]⟩

/-- The action of ROLES (R162). -/
def doRoles (fields : List Byte) (s : State) : Answer :=
  match fields with
  | [] => refuse .range s
  | start :: rest =>
    match parseRoles rest with
    | none => refuse .range s
    | some codes =>
      if 1 ≤ codes.length ∧ start.toNat ≤ 27 ∧ start.toNat + codes.length ≤ 28 then
        rolesCodes start.toNat codes s
      else refuse .range s

/-- ROLES (R162), with KEY as read at the take (R178). -/
def execRoles (key : Bool) (fields : List Byte) (s : State) : Host.Outcome State Fault Refusal :=
  .next (request 0x08 fields (ifServed .roles (doRoles fields)) (sampleKey key s))

/-! ### OVRD -/

/-- An override set on a port, its wanted state derived afresh (R102). -/
def setOverride (p : Port) (o : Override) (s : State) : State :=
  s.modPort p fun r => { r with override := o }.deriveWanted

/-- OVRD with its port and value read (R163). -/
def ovrdPort (p : Port) (o : Override) (s : State) : Answer :=
  if (s.port p).present = false ∨ (s.port p).role = .unused then refuse .state s
  else
    let t := setOverride p o s
    let r := t.port p
    ⟨t, .ok, [portByte p, r.override.code, r.guard.code, r.wanted.code]⟩

/-- The action of OVRD (R163). -/
def doOvrd (fields : List Byte) (s : State) : Answer :=
  match fields with
  | [b, c] =>
    match portOfByte b, Override.ofCode c with
    | some p, some o => ovrdPort p o s
    | _, _ => refuse .range s
  | _ => refuse .range s

/-- OVRD (R163). -/
def execOvrd (fields : List Byte) (s : State) : Host.Outcome State Fault Refusal :=
  .next (request 0x09 fields (ifServed .ovrd (doOvrd fields)) s)

/-! ### STORE, WRITE_COMPLETION and KEY_FALL -/

/-- STORE with its area read: LOCKED before BUSY (R164). -/
def storeArea (a : AreaName) (s : State) : Answer :=
  if a = .roles ∧ s.key = false then refuse .locked s
  else if s.settings.write.isSome then refuse .busy s
  else ⟨startWrite a s, .ok, [a.code]⟩

/-- The action of STORE (R164). -/
def doStore (fields : List Byte) (s : State) : Answer :=
  match fields with
  | [b] =>
    match AreaName.ofCode b with
    | some a => storeArea a s
    | none => refuse .range s
  | _ => refuse .range s

/-- STORE (R177), with KEY as read at the take (R178). -/
def execStore (key : Bool) (fields : List Byte) (s : State) : Host.Outcome State Fault Refusal :=
  .next (request 0x0B fields (ifServed .store (doStore fields)) (sampleKey key s))

/-- WRITE_COMPLETION: the end of tWR (R177). -/
def execWriteCompletion (took : Bool) (s : State) : Host.Outcome State Fault Refusal := .next (writeEnds took s)

/-- KEY_FALL: a fall of KEY from high to low (R178). -/
def execKeyFall (s : State) : Host.Outcome State Fault Refusal := .next (keyFalls s)

end Sys2Proof.Machine
end

