-- ==== Sys2Proof/Machine/Requests.lean ====
section
/-! DEFINITION. Meanings of the requests that read, report and steer: UNKNOWN, STAT, PORTQ, FETCH, ACKGAP,
TRAPCLR, MODE, LESSON, RESET, WATCH, EXTEND and UNWATCH (ch. 09, ch. 10). -/

namespace Sys2Proof.Machine

/-- UNKNOWN: a kind that names no request is answered UNKNOWN in every mode (R156). -/
def execUnknown (kind : Byte) (fields : List Byte) (s : State) : Host.Outcome State Fault Refusal :=
  .next (if namesRequest kind then s else request kind fields (fun t => refuse .unknown t) s)

/-! ### STAT -/

/-- The write-in-flight field of STAT: the area code, or 0xFF (R181). -/
def writeByte : Option StoreWrite → Byte
  | some (.policy _ _) => AreaName.code .policy
  | some (.roles _ _) => AreaName.code .roles
  | none => 0xFF

/-- The watch fields of STAT (R181). -/
def watchBytes : Option Watch → List Byte
  | none => List.replicate 6 0
  | some w => 1 :: portByte w.port :: bytesOf 2 (w.remaining.getD 0) ++ bytesOf 2 (w.slot.getD 0)

/-- The seventeen counts of STAT, in the order of R157. -/
def statCounts (s : State) : List Nat :=
  [s.meter.lateOrDuplicate, s.meter.missing, s.probe.skipped, s.probe.foreign, s.probe.malformed,
    s.probe.lateCatch, s.evidence.evictions, s.glink.framingErrors, s.glink.unknownRecords, s.glink.badPorts,
    s.glink.strayAcks, s.glink.ackTimeouts, s.arbiter.consecutive, s.mgmt.badLength, s.mgmt.truncated,
    s.mgmt.checkFails, s.mgmt.busy]

/-- The fields of a STAT reply, in the order of R181. -/
def statFields (s : State) : List Byte :=
  [s.control.mode.code, s.control.resetCause.code, s.glink.state.code, flagByte s.key,
    writeByte s.settings.write, s.settings.policyValidity.code, s.settings.roleValidity.code,
    BitVec.ofNat 8 s.reports.queue.length, flagByte s.reports.overflow] ++
    bytesOf 2 s.reports.lost ++ watchBytes s.reports.watch ++ trapBytes s.trap ++
    (statCounts s).flatMap (bytesOf 2)

/-- STAT's clear flag: every count but the consecutive-timeout count becomes 0 (R157). -/
def clearCounts (s : State) : State :=
  { s with
    meter := { s.meter with lateOrDuplicate := 0, missing := 0 }
    probe := { s.probe with skipped := 0, foreign := 0, malformed := 0, lateCatch := 0 }
    evidence := { s.evidence with evictions := 0 }
    glink :=
      { s.glink with framingErrors := 0, unknownRecords := 0, badPorts := 0, strayAcks := 0, ackTimeouts := 0 }
    mgmt := { s.mgmt with badLength := 0, truncated := 0, checkFails := 0, busy := 0 } }

/-- The action of STAT (R157). -/
def doStat (fields : List Byte) (s : State) : Answer :=
  match fields with
  | [] => ⟨s, .ok, statFields s⟩
  | [c] =>
    if c = 0 then ⟨s, .ok, statFields s⟩
    else if c = 1 then ⟨clearCounts s, .ok, statFields s⟩
    else refuse .range s
  | _ => refuse .range s

/-- STAT (R157), with KEY as read at the take (R178). -/
def execStat (key : Bool) (fields : List Byte) (s : State) : Host.Outcome State Fault Refusal :=
  .next (request 0x01 fields (ifServed .stat (doStat fields)) (sampleKey key s))

/-! ### PORTQ -/

/-- One PORTQ record (R158, R181). -/
def portqRecord (r : PortRec) : List Byte :=
  [r.role.code, flagByte r.present, flagByte r.linkUp, r.guard.code, r.override.code, confirmedByte r.confirmed,
    BitVec.ofNat 8 r.strike] ++
    bytesOf 2 r.hold ++ bytesOf 2 r.throttleHold ++ bytesOf 2 r.lastF ++ bytesOf 3 r.avgE ++
    bytesOf 2 r.creditB ++ [flagByte r.trip]

/-- The number of records PORTQ returns (R158). -/
def portqCount (start count : Nat) : Nat := min (clampTo 1 10 count) (28 - start)

/-- The action of PORTQ (R158). -/
def doPortq (fields : List Byte) (s : State) : Answer :=
  match fields with
  | [start, count] =>
    if start.toNat ≤ 27 then
      let n := portqCount start.toNat count.toNat
      ⟨s, .ok, BitVec.ofNat 8 n ::
        ((allPorts.drop start.toNat).take n).flatMap fun p => portqRecord (s.port p)⟩
    else refuse .range s
  | _ => refuse .range s

/-- PORTQ (R158). -/
def execPortq (fields : List Byte) (s : State) : Host.Outcome State Fault Refusal :=
  .next (request 0x02 fields (ifServed .portq (doPortq fields)) s)

/-! ### FETCH, ACKGAP and TRAPCLR -/

/-- The judgement of resumption (R171). -/
def judgeResumption (s : State) : State :=
  if s.reports.queue.length ≤ Config.halfQueue then
    let t :=
      report (.gap s.reports.lost)
        { s with reports := { s.reports with overflow := false, acknowledged := false } }
    { t with reports := { t.reports with lost := 0 } }
  else s

/-- The removal of a FETCH, and its judgement of resumption (R170). -/
def fetchState (n : Nat) (s : State) : State :=
  let t := { s with reports := { s.reports with queue := s.reports.queue.drop n } }
  if t.reports.overflow ∧ t.reports.acknowledged then judgeResumption t else t

/-- The action of FETCH (R159, R170). -/
def doFetch (fields : List Byte) (s : State) : Answer :=
  match fields with
  | [b] =>
    let n := clampTo 1 8 b.toNat
    let got := s.reports.queue.take n
    let t := fetchState n s
    ⟨t, .ok, BitVec.ofNat 8 got.length :: got.flatMap Report.bytes ++ [BitVec.ofNat 8 t.reports.queue.length]⟩
  | _ => refuse .range s

/-- FETCH (R170). -/
def execFetch (fields : List Byte) (s : State) : Host.Outcome State Fault Refusal :=
  .next (request 0x03 fields (ifServed .fetch (doFetch fields)) s)

/-- The acknowledgement of an overflow (R171). -/
def acknowledge (s : State) : State :=
  if s.reports.overflow then judgeResumption { s with reports := { s.reports with acknowledged := true } }
  else s

/-- The action of ACKGAP (R159, R171): the reply says whether the overflow ended at this request.  The code of that field
is in no table: one byte, 1 for resumed and 0 for not resumed, is the model's choice (DESIGN CHOICE, log entry 26). -/
def doAckgap (fields : List Byte) (s : State) : Answer :=
  match fields with
  | [] => ⟨acknowledge s, .ok, [flagByte (s.reports.overflow && !(acknowledge s).reports.overflow)]⟩
  | _ => refuse .range s

/-- ACKGAP (R171). -/
def execAckgap (fields : List Byte) (s : State) : Host.Outcome State Fault Refusal :=
  .next (request 0x04 fields (ifServed .ackgap (doAckgap fields)) s)

/-- The action of TRAPCLR (R55, R159). -/
def doTrapclr (fields : List Byte) (s : State) : Answer :=
  match fields with
  | [] => ⟨{ s with trap := none }, .ok, trapBytes s.trap⟩
  | _ => refuse .range s

/-- TRAPCLR (R159). -/
def execTrapclr (fields : List Byte) (s : State) : Host.Outcome State Fault Refusal :=
  .next (request 0x05 fields (ifServed .trapclr (doTrapclr fields)) s)

/-! ### MODE, LESSON and RESET -/

/-- A port in one of the states that REST allows, with no override (R149). -/
def PortRec.restful (r : PortRec) : Bool :=
  (decide (r.guard = .down) || decide (r.guard = .forward) || decide (r.guard = .disabled)) &&
    decide (r.override = .noOverride)

/-- MODE REST is allowed (R149). -/
def restAllowed (s : State) : Bool := (allPorts.all fun p => (s.port p).restful) && s.reports.watch.isNone

/-- The reply of an accepted MODE request: the mode after it (R160). -/
def modeReply (s : State) : Answer := ⟨s, .ok, [s.control.mode.code]⟩

/-- The table of R146, for a target mode. -/
def modeTo (target : Mode) (s : State) : Answer :=
  if s.control.mode = target then modeReply s
  else
    match target with
    | .autonomous => modeReply (enterAutonomous .request s)
    | .managed => modeReply (setMode .managed .request s)
    | .rest =>
      if s.control.mode = .managed ∧ restAllowed s then modeReply (setMode .rest .request s)
      else refuse .state s
    | .start => refuse .range s

/-- The action of MODE (R146, R160). -/
def doMode (fields : List Byte) (s : State) : Answer :=
  match fields with
  | [b] =>
    match Mode.ofTarget b with
    | some m => modeTo m s
    | none => refuse .range s
  | _ => refuse .range s

/-- MODE (R146). -/
def execMode (fields : List Byte) (s : State) : Host.Outcome State Fault Refusal :=
  .next (request 0x06 fields (ifServed .mode (doMode fields)) s)

/-- The refill of a LESSON: every port whose role is not UNUSED (R34). -/
def lessonRefill (s : State) : State :=
  s.mapPorts fun _ r =>
    if r.role = .unused then r else { r with creditB := (s.control.policy.rowOf r.role).bmax }

/-- The action of LESSON (R34, R160). -/
def doLesson (fields : List Byte) (s : State) : Answer :=
  match fields with
  | [] => ⟨lessonRefill s, .ok, []⟩
  | _ => refuse .range s

/-- LESSON (R34). -/
def execLesson (fields : List Byte) (s : State) : Host.Outcome State Fault Refusal :=
  .next (request 0x0A fields (ifServed .lesson (doLesson fields)) s)

/-- The action of RESET: OK, and the REQUEST reset is owed at the end of the reply (R140, R160). -/
def doReset (fields : List Byte) (s : State) : Answer :=
  match fields with
  | [] => ⟨{ s with mgmt := { s.mgmt with resetOwed := true } }, .ok, []⟩
  | _ => refuse .range s

/-- RESET (R160). -/
def execReset (fields : List Byte) (s : State) : Host.Outcome State Fault Refusal :=
  .next (request 0x0F fields (ifServed .reset (doReset fields)) s)

/-! ### The watch -/

/-- The watch a WATCH request starts (R172). -/
def newWatch (p : Port) (n d : Nat) : Watch :=
  { port := p
    remaining := if n = 0 then none else some n
    decimation := max 1 d
    counter := 0
    slot := none
    skipped := 0 }

/-- The action of WATCH (R165, R172). -/
def doWatch (fields : List Byte) (s : State) : Answer :=
  match fields with
  | [b, n1, n0, d] =>
    match portOfByte b with
    | none => refuse .range s
    | some p =>
      if s.reports.watch.isSome then refuse .busy s
      else
        ⟨{ s with reports := { s.reports with watch := some (newWatch p (natOf [n1, n0]) d.toNat) } }, .ok,
          [b, n1, n0, BitVec.ofNat 8 (max 1 d.toNat)]⟩
  | _ => refuse .range s

/-- WATCH (R165). -/
def execWatch (fields : List Byte) (s : State) : Host.Outcome State Fault Refusal :=
  .next (request 0x0C fields (ifServed .watch (doWatch fields)) s)

/-- The action of EXTEND (R165, R174, R181). -/
def doExtend (fields : List Byte) (s : State) : Answer :=
  match fields with
  | [m1, m0] =>
    match s.reports.watch with
    | none => refuse .ended s
    | some w =>
      if w.slot.isSome then refuse .busy s
      else
        let m := max 1 (natOf [m1, m0])
        ⟨{ s with reports := { s.reports with watch := some { w with slot := some m } } }, .ok, bytesOf 2 m⟩
  | _ => refuse .range s

/-- EXTEND (R174). -/
def execExtend (fields : List Byte) (s : State) : Host.Outcome State Fault Refusal :=
  .next (request 0x0D fields (ifServed .extend (doExtend fields)) s)

/-- The end of a watch by UNWATCH (R175). -/
def stopWatch (w : Watch) (s : State) : State :=
  let t := report (.watchEnd w.port .stopped w.skipped) s
  { t with reports := { t.reports with watch := none } }

/-- The action of UNWATCH (R165, R175). -/
def doUnwatch (fields : List Byte) (s : State) : Answer :=
  match fields with
  | [] =>
    match s.reports.watch with
    | none => refuse .ended s
    | some w => ⟨stopWatch w s, .ok, []⟩
  | _ => refuse .range s

/-- UNWATCH (R175). -/
def execUnwatch (fields : List Byte) (s : State) : Host.Outcome State Fault Refusal :=
  .next (request 0x0E fields (ifServed .unwatch (doUnwatch fields)) s)

end Sys2Proof.Machine
end

