-- ==== Sys2Proof/Machine/Line.lean ====
section
/-! DEFINITION. Meanings of the Management Line's own steps (ch. 09). -/

namespace Sys2Proof.Machine

/-- What the owning block of each request answers, once the mode serves it (R157 to R165). -/
def RequestKind.act (k : RequestKind) (fields : List Byte) : State → Answer :=
  match k with
  | .stat => doStat fields
  | .portq => doPortq fields
  | .fetch => doFetch fields
  | .ackgap => doAckgap fields
  | .trapclr => doTrapclr fields
  | .mode => doMode fields
  | .setp => doSetp fields
  | .roles => doRoles fields
  | .ovrd => doOvrd fields
  | .lesson => doLesson fields
  | .store => doStore fields
  | .watch => doWatch fields
  | .extend => doExtend fields
  | .unwatch => doUnwatch fields
  | .reset => doReset fields

/-- The answer to a request that has been taken: a kind that names none is answered UNKNOWN, one the mode does not
serve STATE (R145, R156). -/
def answerTo (kind : Byte) (fields : List Byte) (s : State) : Answer :=
  match RequestKind.ofCode kind with
  | some k => ifServed k (k.act fields) s
  | none => refuse .unknown s

/-- A frame is taken as a request and carried out at that moment (R154, R156).  A complete frame has a kind byte,
since LEN is at least 1. -/
def serve (body : List Byte) (s : State) : State :=
  match body with
  | [] => s
  | kind :: fields => sendReply kind (answerTo kind fields (takeFrame body s))

/-- R154's judgement of a complete frame. -/
def judgeFrame (f : Frame) (s : State) : State :=
  if f.check ≠ frameCheck f.body then frameCheckFails s
  else if lineFree s then serve f.body s
  else frameBusy (kindOf f.body) s

/-- The frame that a character has completed is judged at once (R153, R154). -/
def judgeComplete (s : State) : State :=
  match s.mgmt.complete with
  | none => s
  | some f => judgeFrame f { s with mgmt := { s.mgmt with complete := none } }

/-- CHARACTER (R153).  The character that completes a frame brings its judgement (R154), and with it the request
that the frame carries (R156). -/
def execCharacter (b : Byte) (stop : CharacterEnd) (s : State) : Host.Outcome State Fault Refusal :=
  .next (judgeComplete (receiveChar b stop.framingFault (sampleKey stop.key s)))

/-- GAP_TIMEOUT: a gap longer than tGAP inside a frame (R153). -/
def execGapTimeout (s : State) : Host.Outcome State Fault Refusal :=
  .next (if s.mgmt.rx = .hunt then s else frameTruncated s)

/-- CHECK_FAIL: a frame arrives whole and its check fails (R154). -/
def execCheckFail (body : List Byte) (check : BitVec 16) (s : State) : Host.Outcome State Fault Refusal :=
  .next (if check ≠ frameCheck body ∧ frameArrives body s then frameCheckFails s else s)

/-- REJECT_BUSY: a checked frame that arrives while a reply is owed or being sent, or a REJECT waits (R154). -/
def execRejectBusy (kind : Byte) (fields : List Byte) (s : State) : Host.Outcome State Fault Refusal :=
  .next (if frameArrives (kind :: fields) s ∧ lineFree s = false then frameBusy kind s else s)

/-- The end of a reply: a waiting REJECT is sent, or the line becomes IDLE (R155). -/
def replyEnds (s : State) : State :=
  match s.mgmt.reject with
  | some r => { s with mgmt := { s.mgmt with line := .sending (rejectBody r), reject := none } }
  | none => { s with mgmt := { s.mgmt with line := .idle } }

/-- A reply is being sent. -/
def ReplyLine.isSending (l : ReplyLine) : Bool :=
  match l with
  | .sending _ => true
  | .idle => false
  | .owed _ => false

/-- REPLY_END: the last stop bit of a reply (R155); after a RESET reply the REQUEST reset is taken (R140). -/
def execReplyEnd (baud : Bool) (s : State) : Host.Outcome State Fault Refusal :=
  .next
    (if s.mgmt.line.isSending then (if s.mgmt.resetOwed then resetTo .request baud s else replyEnds s) else s)

end Sys2Proof.Machine
end

