-- ==== Sys2Proof/Machine/Resets.lean ====
section
/-! DEFINITION. Meanings of the resets, the Settings Store load and the pacing of START (ch. 08). -/

namespace Sys2Proof.Machine

/-- POWER_RESET: held until the supply and XIN are stable, then all volatile state is cleared (R140, R141). -/
def execPowerReset (baud : Bool) (s : State) : Host.Outcome State Fault Refusal :=
  .next (resetTo .power baud s)

/-- PIN_RESET: RESETN held low and then high (R140, R141). -/
def execPinReset (baud : Bool) (s : State) : Host.Outcome State Fault Refusal :=
  .next (resetTo .pin baud s)

/-- SETTINGS_STORE_LOAD: the read of both areas is done (R142). -/
def execSettingsStoreLoad (s : State) : Host.Outcome State Fault Refusal :=
  .next (if s.control.loading then loadDone s else s)

/-- START_PACING_ALLOWANCE: while START lasts with the link UNRESPONSIVE, the arbiter's pacing allowance
(R143, R135). -/
def execStartPacingAllowance (s : State) : Host.Outcome State Fault Refusal :=
  .next
    (if s.control.mode = .start ∧ s.control.loading = false ∧ s.glink.state = .unresponsive then paceTick s
     else s)

end Sys2Proof.Machine
end

