-- ==== Sys2Proof/Machine/Dispatch.lean ====
section
/-! DEFINITION. The command's meaning, one arm per constructor of Instr. -/

namespace Sys2Proof.Machine

def exec (i : Instr) (s : State) : Host.Outcome State Fault Refusal :=
  match i with
  -- resets and start-up
  | .powerReset baud => Sys2Proof.Machine.execPowerReset baud s
  | .pinReset baud => Sys2Proof.Machine.execPinReset baud s
  | .settingsStoreLoad => Sys2Proof.Machine.execSettingsStoreLoad s
  | .startPacingAllowance => Sys2Proof.Machine.execStartPacingAllowance s
  -- the interval
  | .intervalEvent => Sys2Proof.Machine.execIntervalEvent s
  | .roundStart => Sys2Proof.Machine.execRoundStart s
  | .probeExpiry => Sys2Proof.Machine.execProbeExpiry s
  | .throttleHoldExpiry port => Sys2Proof.Machine.execThrottleHoldExpiry port s
  | .holdExpiry port => Sys2Proof.Machine.execHoldExpiry port s
  | .strikeDecay port => Sys2Proof.Machine.execStrikeDecay port s
  | .hostLost => Sys2Proof.Machine.execHostLost s
  -- inbound Guard Link records
  | .digest port stamp f => Sys2Proof.Machine.execDigest port stamp f s
  | .catchRecord ingress egress round identity => Sys2Proof.Machine.execCatch ingress egress round identity s
  | .link port up => Sys2Proof.Machine.execLink port up s
  | .ack port ok up => Sys2Proof.Machine.execAck port ok up s
  | .framingError bits => Sys2Proof.Machine.execFramingError bits s
  | .unknownRecord record => Sys2Proof.Machine.execUnknownRecord record s
  -- the command channel
  | .ackTimeout => Sys2Proof.Machine.execAckTimeout s
  | .setport => Sys2Proof.Machine.execSetport s
  | .inject => Sys2Proof.Machine.execInject s
  | .commandLastBit => Sys2Proof.Machine.execCommandLastBit s
  -- the Management Line
  | .character byte stop => Sys2Proof.Machine.execCharacter byte stop s
  | .gapTimeout => Sys2Proof.Machine.execGapTimeout s
  | .checkFail body check => Sys2Proof.Machine.execCheckFail body check s
  | .rejectBusy kind fields => Sys2Proof.Machine.execRejectBusy kind fields s
  | .replyEnd baud => Sys2Proof.Machine.execReplyEnd baud s
  -- requests
  | .unknown kind fields => Sys2Proof.Machine.execUnknown kind fields s
  | .stat key fields => Sys2Proof.Machine.execStat key fields s
  | .portq fields => Sys2Proof.Machine.execPortq fields s
  | .fetch fields => Sys2Proof.Machine.execFetch fields s
  | .ackgap fields => Sys2Proof.Machine.execAckgap fields s
  | .trapclr fields => Sys2Proof.Machine.execTrapclr fields s
  | .mode fields => Sys2Proof.Machine.execMode fields s
  | .lesson fields => Sys2Proof.Machine.execLesson fields s
  | .reset fields => Sys2Proof.Machine.execReset fields s
  | .setp fields => Sys2Proof.Machine.execSetp fields s
  | .roles key fields => Sys2Proof.Machine.execRoles key fields s
  | .ovrd fields => Sys2Proof.Machine.execOvrd fields s
  | .store key fields => Sys2Proof.Machine.execStore key fields s
  | .watch fields => Sys2Proof.Machine.execWatch fields s
  | .extend fields => Sys2Proof.Machine.execExtend fields s
  | .unwatch fields => Sys2Proof.Machine.execUnwatch fields s
  -- the Settings Store and the strobe
  | .writeCompletion took => Sys2Proof.Machine.execWriteCompletion took s
  | .keyFall => Sys2Proof.Machine.execKeyFall s
  | .strobeLastBit => Sys2Proof.Machine.execStrobeLastBit s

end Sys2Proof.Machine
end

