-- ==== Sys2Proof/Machine/Step.lean ====
section
/-! DEFINITION. One step of the machine: the command at the front of the queue; and the host's way of putting
the command of a table word there. -/

namespace Sys2Proof.Machine

/-- One step: the front command runs on the state with the queue's rest; with no command waiting the block
idles (log entry 16). -/
def step (s : State) : Host.Outcome State Fault Refusal :=
  match s.pending with
  | [] => .next s
  | c :: rest => exec c { s with pending := rest }

/-- The state with the command that a table word spells put at the front of its queue; unchanged where the
word spells none (log entry 17). -/
def State.withFetchWord (s : State) (nbits w : Nat) : State :=
  match decodeTableWord nbits w with
  | some c => { s with pending := c :: s.pending }
  | none => s

end Sys2Proof.Machine
end

