-- ==== Sys2Proof/Safety.lean ====
section
/-! DEFINITION. What the statements speak of: the parts of the state a command may change, the moment at
which a request is carried out, and the invariants of the part. -/

namespace Sys2Proof.Machine

/-! ### Parts of the state -/

/-- The parts of State, one per field. -/
inductive Part
  | ports | order | clock | meter | probe | evidence | trap | arbiter | glink | mgmt | control | reports
  | settings | identity | key | pending
  deriving DecidableEq, Repr

/-- A part is the same in two states. -/
def Part.same (a : Part) (s t : State) : Prop :=
  match a with
  | .ports => t.ports = s.ports
  | .order => t.order = s.order
  | .clock => t.clock = s.clock
  | .meter => t.meter = s.meter
  | .probe => t.probe = s.probe
  | .evidence => t.evidence = s.evidence
  | .trap => t.trap = s.trap
  | .arbiter => t.arbiter = s.arbiter
  | .glink => t.glink = s.glink
  | .mgmt => t.mgmt = s.mgmt
  | .control => t.control = s.control
  | .reports => t.reports = s.reports
  | .settings => t.settings = s.settings
  | .identity => t.identity = s.identity
  | .key => t.key = s.key
  | .pending => t.pending = s.pending

/-- Every part but the listed ones is the same. -/
def OnlyChanges (parts : List Part) (s t : State) : Prop := ∀ a, a ∉ parts → a.same s t

/-- The parts that guard and evidence events may change. -/
def guardParts : List Part := [.ports, .evidence, .trap, .reports]

/-- The parts that a fall from MANAGED to AUTONOMOUS may change (R147, R148). -/
def fallParts : List Part := [.ports, .evidence, .trap, .reports, .probe, .control]

/-- The parts that a step of the interval may change. -/
def intervalParts : List Part :=
  [.ports, .evidence, .trap, .reports, .probe, .control, .clock, .glink, .meter, .arbiter]

/-- The parts that a link event may change. -/
def linkParts : List Part := [.ports, .evidence, .trap, .reports, .probe, .control, .order, .glink, .arbiter]

/-- The parts a command may change: the frame of every row of the table. -/
def touches (c : Instr) : List Part :=
  match c with
  | .powerReset _ | .pinReset _ | .replyEnd _ =>
    [.ports, .order, .clock, .meter, .probe, .evidence, .trap, .arbiter, .glink, .mgmt, .control, .reports,
      .settings]
  | .settingsStoreLoad => [.ports, .control, .settings]
  | .startPacingAllowance => [.arbiter]
  | .intervalEvent => intervalParts
  | .roundStart => [.ports, .evidence, .trap, .reports, .probe, .clock]
  | .probeExpiry => [.ports, .evidence, .trap, .reports, .probe]
  | .throttleHoldExpiry _ | .holdExpiry _ => guardParts
  | .strikeDecay _ => [.ports]
  | .hostLost => fallParts
  | .digest _ _ _ => [.ports, .evidence, .trap, .reports, .control, .meter, .glink, .arbiter]
  | .catchRecord _ _ _ _ => [.ports, .evidence, .trap, .reports, .control, .probe, .glink, .arbiter]
  | .link _ _ => linkParts
  | .ack _ _ _ => [.ports, .evidence, .trap, .reports, .probe, .control, .order, .glink, .arbiter, .clock]
  | .framingError _ | .unknownRecord _ | .commandLastBit | .strobeLastBit => [.glink]
  | .ackTimeout => [.ports, .probe, .trap, .reports, .arbiter, .glink]
  | .setport => [.ports, .arbiter, .glink]
  | .inject => [.probe, .arbiter, .glink]
  | .gapTimeout => [.mgmt]
  | .checkFail _ _ | .rejectBusy _ _ => [.mgmt]
  | .unknown _ _ | .portq _ | .fetch _ | .ackgap _
  | .trapclr _ | .mode _ | .lesson _ | .reset _ | .setp _ | .ovrd _ | .watch _ | .extend _ | .unwatch _ =>
    .mgmt :: fallParts
  | .stat _ _ | .character _ _ =>
    [.ports, .evidence, .trap, .reports, .probe, .control, .mgmt, .key, .settings, .meter, .glink]
  | .roles _ _ | .store _ _ => [.ports, .evidence, .trap, .reports, .probe, .control, .mgmt, .key, .settings]
  | .writeCompletion _ => [.settings, .reports]
  | .keyFall => [.settings, .reports, .key]

/-! ### The moment at which a request is carried out -/

/-- `t` is the state in which the request with this BODY is carried out: its frame arrives whole at a line that is
IDLE with the REJECT slot empty, and is taken (R154; log entry 3 for frames that arrive whole).  The host-lost count is
then 0 (R148). -/
def Carried (body : List Byte) (s t : State) : Prop :=
  s.mgmt.line = .idle ∧ s.mgmt.reject = none ∧ s.mgmt.rx = .hunt ∧ s.mgmt.complete = none ∧ body.length ≤ 200 ∧
    s.control.hostLostDue = false ∧
    t =
      { s with
        mgmt := { s.mgmt with line := .owed body }
        control := { s.control with hostLost := 0 } }

/-- The state once a wake event of this kind at this port has been taken: in REST the part returns to MANAGED with a
MODE record, in any other mode nothing happens (R150, R151). -/
def State.woken (k : WakeKind) (p : Port) (s : State) : State :=
  if s.control.mode = .rest then
    { s with
      control := { s.control with mode := .managed, hostLost := 0, hostLostDue := false }
      reports := (report (.mode .rest .managed (.wake k p)) s).reports }
  else s

/-- The state with a reply frame of this BODY being sent (R155). -/
def State.replying (t : State) (reply : List Byte) : State :=
  { t with mgmt := { t.mgmt with line := .sending reply } }

/-- The state with the Guard Link receiver back in HUNT after a complete record (R106). -/
def State.received (s : State) : State := { s with glink := { s.glink with rx := .hunt } }

/-- A DIGEST of the port with this stamp byte is taken: the link is UP, the port eligible, the stamp the taking stamp, and
the window not yet taken (R22). -/
structure DigestTaken (p : Port) (stamp : Byte) (s : State) : Prop where
  running : s.control.loading = false
  link : s.glink.state = .up
  current : s.meter.takingStamp = some stamp
  present : (s.port p).present = true
  up : (s.port p).linkUp = true
  guarded : (s.port p).role ≠ .unused
  fresh : (s.port p).mark ≠ .taken

/-- The running average of a port after a taken DIGEST with count F (R27, R28). -/
def nextAverage (p : Port) (f : BitVec 16) (s : State) : Nat :=
  (7 * (s.port p).avgE + 256 * (f.toNat - (s.rowAt p).a - (s.port p).creditB)) / 8

/-- No OPT entry fails its parity check (R53). -/
def OptSound (s : State) : Prop := ∀ i e, s.probe.opt.get i = some e → e.parityOk = true

/-- No LET entry fails its parity check, and no victim sweep is owed (R72, R73). -/
def LetSound (s : State) : Prop :=
  s.evidence.sweepOwed = false ∧ ∀ i e, s.evidence.slots.get i = some e → e.parityOk = true

/-- Some standing entry names the port victim (R74). -/
def Named (s : State) (p : Port) : Prop := ∃ i e, s.evidence.slots.get i = some e ∧ e.victim = some p

/-- Some standing entry has the port as egress or ingress (R74). -/
def Involved (s : State) (p : Port) : Prop :=
  ∃ i e, s.evidence.slots.get i = some e ∧ (e.egress = p ∨ e.ingress = p)

/-! ### What the events of the Port Guard make of the ports -/

/-- `u` is the record `r` once its port has entered the guard state `g` with every count 0: the wanted state follows, the
pending flag follows a changed wanted state, and everything else stays (R77, R79, R123). -/
structure PortRec.Entered (r : PortRec) (g : GuardState) (u : PortRec) : Prop where
  guard : u.guard = g
  counts : u.listen = 0 ∧ u.throttleHold = 0 ∧ u.hold = 0 ∧ u.decay = 0
  wanted : u.wanted = wantedOf r.override g
  flagKept : u.wanted = r.wanted → u.pendingFlag = r.pendingFlag
  flagMade : u.wanted ≠ r.wanted → u.pendingFlag = pendingOf u
  strike : u.strike = r.strike
  meter : u.lastF = r.lastF ∧ u.avgE = r.avgE ∧ u.creditB = r.creditB ∧ u.trip = r.trip ∧ u.mark = r.mark
  table : u.role = r.role ∧ u.present = r.present ∧ u.linkUp = r.linkUp ∧ u.override = r.override
  arbiter : u.confirmed = r.confirmed ∧ u.inFlight = r.inFlight

/-- Evidence-gone acts on a port in SUSPECT, and on one in BLOCKED whose hold has run out (R88, R97). -/
def PortRec.Freed (r : PortRec) : Prop := r.guard = .suspect ∨ (r.guard = .blocked ∧ r.hold = 0)

/-- The STATE record, if any, of evidence-gone for a port found in this guard state with this hold (R88, R97). -/
def goneReport (v : Port) (g : GuardState) (hold : Nat) (s : State) : State :=
  if g = .suspect then report (.state v .suspect .forward .evidenceGone) s
  else if g = .blocked ∧ hold = 0 then report (.state v .blocked .listen .release) s
  else s

/-- Ports and reports of `t` are those of `s` after evidence-gone for each of the listed ports in turn: SUSPECT goes to
FORWARD, BLOCKED with hold 0 to LISTEN, any other port stays (R67, R88, R97). -/
structure EvidenceGone (gone : List Port) (s t : State) : Prop where
  suspect : ∀ v ∈ gone, (s.port v).guard = .suspect → (s.port v).Entered .forward (t.port v)
  blocked : ∀ v ∈ gone, (s.port v).guard = .blocked → (s.port v).hold = 0 → (s.port v).Entered .listen (t.port v)
  kept : ∀ v, v ∉ gone ∨ ¬ (s.port v).Freed → t.port v = s.port v
  reports : t.reports =
    (gone.foldl (fun u v => goneReport v (s.port v).guard (s.port v).hold u) s).reports

/-- Ports and reports of `t` are those of `s` after evidence for the victim of a new entry, if it has one: FORWARD goes to
SUSPECT, a port in LISTEN starts its count again, any other port stays (R60 step 4, R87, R88, R94, R98). -/
structure EvidenceGiven (v : Option Port) (s t : State) : Prop where
  forward : ∀ p, v = some p → (s.port p).guard = .forward →
    (s.port p).Entered .suspect (t.port p) ∧
      t.reports = (report (.state p .forward .suspect .evidence) s).reports
  listen : ∀ p, v = some p → (s.port p).guard = .listen → t.port p = { s.port p with listen := 0 }
  kept : ∀ p, v ≠ some p ∨ ((s.port p).guard ≠ .forward ∧ (s.port p).guard ≠ .listen) → t.port p = s.port p
  silent : (∀ p, v = some p → (s.port p).guard ≠ .forward) → t.reports = s.reports

/-- Ports and reports of `t` are those of `s` after the first confirmation of the entry of egress `x` and ingress `y`
with this victim: a victim in LISTEN, FORWARD, SUSPECT or THROTTLE is blocked, and an entry without a victim is reported
(R65, R66, R90, R95). -/
structure FirstConfirmed (v : Option Port) (x y : Port) (count : Nat) (s t : State) : Prop where
  blocks : ∀ p, v = some p →
    ((s.port p).guard = .listen ∨ (s.port p).guard = .forward ∨ (s.port p).guard = .suspect ∨
      (s.port p).guard = .throttle) →
    let strike := min 6 ((s.port p).strike + 1)
    (t.port p).guard = .blocked ∧ (t.port p).strike = strike ∧
      (t.port p).hold = s.control.policy.tHOLD0 * 2 ^ (strike - 1) ∧
      (t.port p).listen = 0 ∧ (t.port p).throttleHold = 0 ∧ (t.port p).decay = 0 ∧
      t.reports =
        (report (.loop p x y count strike) (report (.state p (s.port p).guard .blocked .confirm) s)).reports
  stays : ∀ p, v = some p →
    ((s.port p).guard = .blocked ∨ (s.port p).guard = .down ∨ (s.port p).guard = .disabled) →
    t.port p = s.port p ∧ t.reports = s.reports
  unowned : v = none → t.reports = (report (.ploop x y count) s).reports
  others : ∀ q, v ≠ some q → t.port q = s.port q

/-- A judgement of the listen bookkeeping takes the port out of LISTEN (R84 to R86). -/
def LeavesListen (p : Port) (clean : Prop) (s : State) : Prop :=
  (s.port p).guard = .listen ∧ clean ∧ s.control.policy.nLSN ≤ min 7 ((s.port p).listen + 1)

/-- The STATE record of a port that leaves LISTEN (R85). -/
def listenDone (p : Port) (s : State) : ReportBody :=
  .state p .listen (if (s.port p).trip then .throttle else .forward) .listenDone

/-- The port in `t` is that of `s` after one judgement of the listen bookkeeping: clean, it counts, and at nLSN the port
leaves LISTEN for FORWARD or, with its trip flag set, for THROTTLE; not clean, the count is 0 (R84 to R86, R91). -/
structure ListenBooked (p : Port) (clean : Prop) (s t : State) : Prop where
  away : (s.port p).guard ≠ .listen → t.port p = s.port p
  unclean : (s.port p).guard = .listen → ¬ clean → t.port p = { s.port p with listen := 0 }
  counts : (s.port p).guard = .listen → clean → min 7 ((s.port p).listen + 1) < s.control.policy.nLSN →
    t.port p = { s.port p with listen := min 7 ((s.port p).listen + 1) }
  leaves : LeavesListen p clean s → (s.port p).trip = false → (s.port p).Entered .forward (t.port p)
  throttles : LeavesListen p clean s → (s.port p).trip = true →
    (t.port p).guard = .throttle ∧ (t.port p).throttleHold = (s.rowAt p).nthr ∧ (t.port p).listen = 0 ∧
      (t.port p).hold = 0 ∧ (t.port p).decay = 0 ∧ (t.port p).strike = (s.port p).strike ∧
      (t.port p).trip = true ∧ (t.port p).wanted = wantedOf (s.port p).override .throttle

/-! ### The interval event -/

/-- Nothing of the last interval event is left to be judged (log entry 5), and no STROBE is in the transmitter: the
state in which an interval event finds the part when every step before it has been taken. -/
structure NothingDue (s : State) : Prop where
  round : s.clock.roundDue = false
  expiry : ∀ i e, s.probe.opt.get i = some e → e.parityOk = true → e.phase ≠ .out s.clock.stamp
  ports : ∀ p, (s.port p).throttleDue = false ∧ (s.port p).holdDue = false ∧ (s.port p).decayDue = false
  host : s.control.hostLostDue = false
  strobe : ∀ b, s.glink.sending ≠ some (.strobe b) ∧ s.glink.waiting ≠ some (.strobe b)

/-- Nothing is due, and no table entry fails its parity. -/
structure Settled (s : State) : Prop extends NothingDue s where
  sound : OptSound s

/-! ### The requests by their kind bytes (ch. 12) -/

/-- The request a command stands for: kind byte and fields. -/
def requestOf (c : Instr) : Option (Byte × List Byte) :=
  match c with
  | .stat _ f => some (0x01, f)
  | .portq f => some (0x02, f)
  | .fetch f => some (0x03, f)
  | .ackgap f => some (0x04, f)
  | .trapclr f => some (0x05, f)
  | .mode f => some (0x06, f)
  | .setp f => some (0x07, f)
  | .roles _ f => some (0x08, f)
  | .ovrd f => some (0x09, f)
  | .lesson f => some (0x0A, f)
  | .store _ f => some (0x0B, f)
  | .watch f => some (0x0C, f)
  | .extend f => some (0x0D, f)
  | .unwatch f => some (0x0E, f)
  | .reset f => some (0x0F, f)
  | _ => none

/-- The state once the command has read KEY (R178). -/
def keyRead (c : Instr) (s : State) : State :=
  match c with
  | .stat k _ => sampleKey k s
  | .roles k _ => sampleKey k s
  | .store k _ => sampleKey k s
  | _ => s

/-- The service table of R145, by kind byte. -/
def servedIn (m : Mode) (kind : Byte) : Prop :=
  match m with
  | .start => kind = 0x01
  | .autonomous => kind ∉ [(0x07 : Byte), 0x08, 0x09, 0x0B]
  | .managed => True
  | .rest => kind ∉ [(0x07 : Byte), 0x08, 0x09, 0x0B, 0x0C, 0x0D, 0x0E]

/-- The lengths of a request's fields (ch. 12: LEN less one; R181 for SETP). -/
def lengthFits (kind : Byte) (n : Nat) : Prop :=
  if kind = 0x01 then n ≤ 1
  else if kind ∈ [(0x04 : Byte), 0x05, 0x0A, 0x0E, 0x0F] then n = 0
  else if kind ∈ [(0x03 : Byte), 0x06, 0x0B] then n = 1
  else if kind ∈ [(0x02 : Byte), 0x09, 0x0D] then n = 2
  else if kind = 0x0C then n = 4
  else if kind = 0x07 then 4 ≤ n ∧ n ≤ 64 ∧ n % 4 = 0
  else 2 ≤ n ∧ n ≤ 29

/-! ### Invariants -/

/-- The report queue within its size, and the marks of an overflow in step with one another (R166, R168,
R171). -/
structure QueueFits (s : State) : Prop where
  size : s.reports.queue.length ≤ 64
  lost : s.reports.lost ≤ 65535
  clear : s.reports.overflow = false → s.reports.lost = 0 ∧ s.reports.acknowledged = false

/-- The Management Line between two steps: no frame is left unjudged and no request taken but not answered (log entry 3);
the receiver's bytes fit LEN (R153); a REJECT waits only behind a reply, and a reset only for the end of one (R140,
R155). -/
structure LineFits (s : State) : Prop where
  judged : s.mgmt.complete = none
  answered : ∀ body, s.mgmt.line ≠ .owed body
  body : ∀ n got, s.mgmt.rx = .body n got → got.length < n ∧ n ≤ 200
  check : ∀ body first, s.mgmt.rx = .check body first → 1 ≤ body.length ∧ body.length ≤ 200
  reject : s.mgmt.reject ≠ none → s.mgmt.line ≠ .idle
  reset : s.mgmt.resetOwed = true → s.mgmt.line ≠ .idle

/-- The link-up order list holds the ports whose link flag is up, each once (R8). -/
structure OrderFits (s : State) : Prop where
  once : s.order.Nodup
  member : ∀ p, p ∈ s.order ↔ (s.port p).linkUp = true
  loading : s.control.loading = true → s.order = []

/-- One record's guard state agrees with its link flag, its role and its presence (R78). -/
structure PortRec.Fits (r : PortRec) : Prop where
  linked : r.guard.linked = true → r.linkUp = true
  down : r.guard = .down → r.linkUp = false
  disabled : r.guard = .disabled ↔ r.role = .unused ∨ r.present = false
  absent : r.present = false → r.linkUp = false

/-- The guard states fit the links and roles, every victim is an ACCESS port of its own entry, and no port
but an ACCESS port is BLOCKED (R62, R78). -/
structure GuardFits (s : State) : Prop where
  fits : ∀ p, (s.port p).Fits
  blocked : ∀ p, (s.port p).guard = .blocked → (s.port p).role = .access
  victim : ∀ i e v, s.evidence.slots.get i = some e → e.victim = some v →
    (s.port v).role = .access ∧ (v = e.egress ∨ v = e.ingress)
  loading : s.control.loading = true → ∀ i, s.evidence.slots.get i = none

/-- The runtime policy lies within its ranges, and Tclear and tEXP below Ttrip and tRND (R16, R161). -/
def PolicyFits (s : State) : Prop := s.control.policy.settle = s.control.policy

/-- The pending probe list, the OPT and the LET as R42, R43 and R57 say they always are. -/
structure TablesFit (s : State) : Prop where
  guard : ∀ p, (s.port p).Fits
  nconf : s.control.policy.nCONF ≤ 7
  sorted : s.probe.list.Pairwise (· < ·)
  listed : ∀ p ∈ s.probe.list, (s.port p).linkUp = true ∧ (s.port p).role.probed = true
  fresh : ∀ p ∈ s.probe.list, ∀ i e, s.probe.opt.get i = some e → e.egress = p → e.round ≠ s.roundNow
  optPort : ∀ i e, s.probe.opt.get i = some e →
    (s.port e.egress).linkUp = true ∧ (s.port e.egress).role.probed = true
  optRound : ∀ i e, s.probe.opt.get i = some e → e.round = s.roundNow ∨ e.round + 1 = s.roundNow
  optOnce : ∀ i j e f, s.probe.opt.get i = some e → s.probe.opt.get j = some f →
    e.round = f.round → e.egress = f.egress → i = j
  noRound : s.clock.round = none → s.probe.list = [] ∧ ∀ i, s.probe.opt.get i = none
  letCount : ∀ i e, s.evidence.slots.get i = some e → 1 ≤ e.count ∧ e.count ≤ 7
  letPort : ∀ i e, s.evidence.slots.get i = some e →
    (s.port e.egress).linkUp = true ∧ (s.port e.ingress).linkUp = true ∧ (s.port e.egress).role.probed = true
  letOnce : ∀ i j e f, s.evidence.slots.get i = some e → s.evidence.slots.get j = some f →
    e.egress = f.egress → e.ingress = f.ingress → i = j
  loading : s.control.loading = true →
    s.control.mode = .start ∧ s.clock.roundDue = false ∧ s.clock.round = none ∧
      ∀ i, s.evidence.slots.get i = none

/-- Every meter record within its bounds (R15). -/
structure MeterFits (s : State) : Prop where
  average : ∀ p, (s.port p).avgE ≤ 16776960
  credit : ∀ p, (s.port p).creditB ≤ (s.control.policy.rowOf (s.port p).role).bmax
  unused : ∀ p, (s.port p).role = .unused → (s.port p).avgE = 0 ∧ (s.port p).trip = false

/-- Each count of a guard record belongs to its state and keeps its range (R77). -/
structure CountsFit (s : State) : Prop where
  strike : ∀ p, (s.port p).strike ≤ 6
  hold : ∀ p, (s.port p).hold ≤ 32 * s.control.policy.tHOLD0
  holdState : ∀ p, (s.port p).guard ≠ .blocked → (s.port p).hold = 0
  listen : ∀ p, (s.port p).listen ≤ 7
  listenState : ∀ p, (s.port p).guard ≠ .listen → (s.port p).listen = 0
  throttleState : ∀ p, (s.port p).guard ≠ .throttle → (s.port p).throttleHold = 0
  decayState : ∀ p, (s.port p).guard ≠ .forward → (s.port p).decay = 0

/-- A record is a command, not a STROBE (R110). -/
def OutRecord.isCommand (r : OutRecord) : Bool :=
  match r with
  | .strobe _ => false
  | .setport _ _ => true
  | .inject _ _ _ => true

/-- The arbiter's fields agree with what they are derived from, and with the one outstanding command; a
command is in the transmitter exactly while it is outstanding with its ACK timer stopped, and a record waits
only behind another (R79, R110, R112, R122, R123, R130). -/
structure ChannelFits (s : State) : Prop where
  wanted : ∀ p, (s.port p).wanted = wantedOf (s.port p).override (s.port p).guard
  flag : ∀ p, (s.port p).pendingFlag = pendingOf (s.port p)
  absent : ∀ p, (s.port p).present = false → (s.port p).confirmed = none ∧ (s.port p).inFlight = none
  marker : ∀ p, (s.port p).inFlight ≠ none →
    ∃ o q, s.glink.outstanding = some o ∧ o.kind = .setport q ∧ o.port = p
  run : s.arbiter.faultRun ≤ 3 ∧ (s.glink.state = .up → s.arbiter.faultRun ≤ 2)
  loading : s.control.loading = true → s.glink.outstanding = none
  waits : s.glink.sending = none → s.glink.waiting = none
  single : ∀ a b, s.glink.sending = some a → s.glink.waiting = some b → ¬(a.isCommand = true ∧ b.isCommand = true)
  timed : (∃ a, (s.glink.sending = some a ∨ s.glink.waiting = some a) ∧ a.isCommand = true) ↔
    ∃ o, s.glink.outstanding = some o ∧ o.timerRunning = false

/-- No port carries an override outside MANAGED, nor does an absent or UNUSED port (R2, R103). -/
structure OverridesFit (s : State) : Prop where
  managed : s.control.mode ≠ .managed → ∀ p, (s.port p).override = .noOverride
  guarded : ∀ p, (s.port p).role = .unused ∨ (s.port p).present = false → (s.port p).override = .noOverride

end Sys2Proof.Machine
end

