-- ==== Sys2Proof/Certificates/Slice0/Obligations.lean ====
section
/-! DEFINITION. The statements for the provers.  OBLIGATIONS.json lists them with their sources. -/

open Sys2Proof Sys2Proof.Machine

/-! ### The machine -/

/-- A step runs the front command on the queue's rest; on an empty queue it idles (log entry 16). -/
def Obligations.StepRunsFrontCommand : Prop :=
  (∀ (c : Instr) (rest : List Instr) (s : State),
    step { s with pending := c :: rest } = exec c { s with pending := rest }) ∧
  ∀ s : State, s.pending = [] → step s = .next s

/-- Every command answers a next state, and changes no part of the state but those `touches` lists for it;
the queue and the guard identity are never among them.  That a command offered where the spec gives it no part, or not
well formed, also answers one is the model's choice (log entry 1); the frames of the requests and of CHARACTER rest on
log entries 3 and 4, those of the interval's steps on log entry 5. -/
def Obligations.EveryCommandKeepsItsFrame : Prop :=
  ∀ (c : Instr) (s : State),
    (∃ t, exec c s = .next t ∧ OnlyChanges (touches c) s t ∧ t.pending = s.pending ∧ t.identity = s.identity)

/-! ### Resets and start-up -/

/-- POWER, PIN and REQUEST reset (R140, R141, R152, R179).  The model's choices in it are the level of BAUD as an operand
(log entry 4), the KEY level and the identity kept (log entry 8), and the factory policy and roles and the empty sweep
that stand until the load (log entry 9). -/
def Obligations.ResetsClearVolatileState : Prop :=
  ∀ (baud : Bool) (s : State),
    let after : ResetCause → State := fun c =>
      { State.reset with
        control := { State.reset.control with resetCause := c }
        mgmt := { State.reset.mgmt with fast := baud }
        settings := { s.settings with policyValidity := .notLoaded, roleValidity := .notLoaded, write := none }
        identity := s.identity
        key := s.key
        pending := s.pending }
    exec (.powerReset baud) s = .next (after .power) ∧
    exec (.pinReset baud) s = .next (after .pin) ∧
    ∀ reply, s.mgmt.line = .sending reply → s.mgmt.resetOwed = true →
      exec (.replyEnd baud) s = .next (after .request)

/-- The values after a reset that the spec's tables give (R1, R15, R18, R21, R25, R38, R55, R58, R106, R112,
R116, R119, R122, R139, R142, R152, R166, R172, R179). -/
def Obligations.StateAfterReset : Prop :=
  let s := State.reset
  (∀ p, (s.port p).present = true ∧ (s.port p).linkUp = false ∧ (s.port p).override = .noOverride ∧
    (s.port p).strike = 0 ∧ (s.port p).hold = 0 ∧ (s.port p).listen = 0 ∧ (s.port p).throttleHold = 0 ∧
    (s.port p).decay = 0 ∧ (s.port p).lastF = 0 ∧ (s.port p).avgE = 0 ∧ (s.port p).trip = false ∧
    (s.port p).mark = .idle ∧ (s.port p).wanted = .hold ∧ (s.port p).confirmed = none ∧
    (s.port p).pendingFlag = true ∧ (s.port p).inFlight = none) ∧
  s.order = [] ∧ s.clock.stamp = 0 ∧ s.clock.round = none ∧ s.clock.timer = 0 ∧ s.clock.base = none ∧
  s.meter.takingStamp = none ∧ s.meter.lateOrDuplicate = 0 ∧ s.meter.missing = 0 ∧
  s.probe.list = [] ∧ (∀ i, s.probe.opt.get i = none) ∧ s.probe.skipped = 0 ∧ s.probe.foreign = 0 ∧
  s.probe.malformed = 0 ∧ s.probe.lateCatch = 0 ∧
  (∀ i, s.evidence.slots.get i = none) ∧ s.evidence.evictions = 0 ∧ s.trap = none ∧
  s.arbiter = { pointer := 27, consecutive := 0, faultRun := 0, pacing := false, allowance := false } ∧
  s.glink.rx = .hunt ∧ s.glink.sending = none ∧ s.glink.waiting = none ∧ s.glink.outstanding = none ∧
  s.glink.state = .up ∧ s.glink.framingErrors = 0 ∧ s.glink.unknownRecords = 0 ∧ s.glink.badPorts = 0 ∧
  s.glink.strayAcks = 0 ∧ s.glink.ackTimeouts = 0 ∧
  s.mgmt.rx = .hunt ∧ s.mgmt.line = .idle ∧ s.mgmt.reject = none ∧ s.mgmt.badLength = 0 ∧
  s.mgmt.truncated = 0 ∧ s.mgmt.checkFails = 0 ∧ s.mgmt.busy = 0 ∧
  s.control.mode = .start ∧ s.control.hostLost = 0 ∧
  s.reports = { queue := [], overflow := false, lost := 0, acknowledged := false, watch := none } ∧
  s.settings.policyValidity = .notLoaded ∧ s.settings.roleValidity = .notLoaded ∧ s.settings.write = none

/-- The end of the Settings Store load (R1, R142, R176). -/
def Obligations.LoadAppliesBothAreas : Prop :=
  ∀ s : State, s.control.loading = true → s.settings.write = none →
    let q : Policy :=
      if s.settings.policyArea.passes policyCheck then s.settings.policyArea.contents.settle else factoryPolicy
    let roles : Vector Role 28 :=
      if s.settings.roleArea.passes roleCheck then s.settings.roleArea.contents else factoryRoles
    ∃ t, exec .settingsStoreLoad s = .next t ∧
      OnlyChanges [.ports, .control, .settings] s t ∧
      t.control = { s.control with policy := q, sweep := allPorts, loading := false } ∧
      (∀ p, t.port p =
        { role := roles.get p
          present := true
          linkUp := false
          override := .noOverride
          guard := if roles.get p = .unused then .disabled else .down
          strike := 0, hold := 0, listen := 0, throttleHold := 0, decay := 0
          lastF := 0, avgE := 0
          creditB := (q.rowOf (roles.get p)).bmax
          trip := false
          mark := .idle
          wanted := .hold
          confirmed := none
          pendingFlag := true
          inFlight := none
          throttleDue := false, holdDue := false, decayDue := false }) ∧
      t.settings =
        { s.settings with
          policyValidity := if s.settings.policyArea.passes policyCheck then .valid else .invalid
          roleValidity := if s.settings.roleArea.passes roleCheck then .valid else .invalid }

/-- The last answer of the sweep ends START (R19, R39, R144): the boot mode, the opening STROBE, the first
interval and the first round, which brings an UPLINK port in LISTEN no bookkeeping (R86). -/
def Obligations.LastAnswerEndsStart : Prop :=
  ∀ (s : State) (p previous : Port) (ok up : Bool),
    s.control.mode = .start → s.control.loading = false →
    s.glink.outstanding = some ⟨.setport previous, p, true⟩ → s.control.sweep = [p] →
    ∃ t, exec (.ack (portField p) ok up) s = .next t ∧
      t.control.sweep = [] ∧
      t.control.mode = (if s.control.policy.bootManaged then .managed else .autonomous) ∧
      t.control.hostLost = 0 ∧
      t.clock.stamp = s.clock.stamp ∧
      t.clock.length = some t.control.policy.tIVL ∧
      t.clock.timer = 0 ∧ t.clock.base = some t.control.policy.tRND ∧
      t.clock.round = some (match s.clock.round with | none => 0 | some r => r + 1) ∧
      (t.glink.sending = some (.strobe 0) ∨ t.glink.waiting = some (.strobe 0)) ∧
      t.meter = s.meter ∧
      ∀ q, q ≠ p → (s.port q).role = .uplink → (t.port q).role = .uplink → (s.port q).guard = .listen →
        (t.port q).guard = .listen ∧ (t.port q).listen = (s.port q).listen

/-! ### The interval -/

/-- The interval event moves the stamp, the taking stamp and the interval's length, sends the STROBE and gives
the pacing allowance (R18, R19, R21, R135); in START its place is taken by the pacing of R143. -/
def Obligations.IntervalEventMovesTheClock : Prop :=
  (∀ s : State, s.control.mode ≠ .start →
    ∃ t, exec .intervalEvent s = .next t ∧
      t.clock.stamp = s.clock.stamp + 1 ∧
      t.clock.length = some t.control.policy.tIVL ∧
      t.meter.takingStamp = some ((s.clock.stamp + 1).setWidth 8) ∧
      (t.glink.sending = some (.strobe ((s.clock.stamp + 1).setWidth 8)) ∨
        t.glink.waiting = some (.strobe ((s.clock.stamp + 1).setWidth 8))) ∧
      t.arbiter = { s.arbiter with allowance := s.arbiter.pacing || s.arbiter.allowance }) ∧
  ∀ s : State, s.control.mode = .start → s.control.loading = false → s.glink.state = .unresponsive →
    exec .startPacingAllowance s =
      .next { s with arbiter := { s.arbiter with allowance := s.arbiter.pacing || s.arbiter.allowance } }

/-- What an interval event counts, in a state in which nothing of the last one is left (R21, R24, R39, R92,
R96, R101, R104, R148; log entry 5 for the due marks). -/
def Obligations.IntervalEventCounts : Prop :=
  ∀ s : State, s.control.mode ≠ .start → Settled s →
    ∃ t, exec .intervalEvent s = .next t ∧
      OnlyChanges [.ports, .clock, .meter, .arbiter, .glink, .control] s t ∧
      (∀ p, t.port p =
        { s.port p with
          mark := if (s.port p).metered then .awaited else .idle
          hold := if (s.port p).guard = .blocked then (s.port p).hold - 1 else (s.port p).hold
          holdDue := decide ((s.port p).guard = .blocked ∧ (s.port p).hold = 1)
          throttleHold :=
            if (s.port p).guard = .throttle then (s.port p).throttleHold - 1 else (s.port p).throttleHold
          throttleDue := decide ((s.port p).guard = .throttle ∧ (s.port p).throttleHold = 1)
          decay := if (s.port p).guard = .forward then (s.port p).decay + 1 else (s.port p).decay
          decayDue :=
            decide ((s.port p).guard = .forward ∧ s.control.policy.tDECAY ≤ (s.port p).decay + 1) }) ∧
      t.meter.lateOrDuplicate = s.meter.lateOrDuplicate ∧
      t.meter.missing =
        min 65535 (s.meter.missing +
          (allPorts.filter fun p => (s.port p).metered && decide ((s.port p).mark = .awaited)).length) ∧
      t.clock.timer = s.clock.timer + 1 ∧
      (t.clock.roundDue = true ↔
        ∃ n, s.clock.base = some n ∧
          (if s.control.mode = .rest then min (10 * n) 2500 else n) ≤ s.clock.timer + 1) ∧
      t.clock.round = s.clock.round ∧ t.clock.base = s.clock.base ∧
      t.control =
        (if s.control.mode = .managed then
          { s.control with
            hostLost := s.control.hostLost + 1
            hostLostDue := decide (s.control.policy.tHOST ≤ s.control.hostLost + 1) }
        else s.control)

/-- The steps of a round start (R39, R40, R41), a command of its own after the interval event has marked it due: the mark
is the model's (log entry 5).  Then the bookkeeping of the UPLINK ports in LISTEN (R85, R86): made while the link is UP,
in ascending port order, and none while it is UNRESPONSIVE. -/
def Obligations.RoundStartRebuildsTheList : Prop :=
  ∀ s : State, s.clock.roundDue = true →
    let r : Round := match s.clock.round with | none => 0 | some k => k + 1
    ∃ t, exec .roundStart s = .next t ∧
      OnlyChanges [.ports, .evidence, .trap, .reports, .probe, .clock] s t ∧
      t.clock =
        { s.clock with round := some r, timer := 0, base := some s.control.policy.tRND, roundDue := false } ∧
      t.probe.skipped = min 65535 (s.probe.skipped + s.probe.list.length) ∧
      (∀ i e, t.probe.opt.get i = some e → e.round = r ∨ e.round + 1 = r) ∧
      t.probe.list =
        (if s.glink.state = .up ∧ s.control.mode ≠ .start then
          allPorts.filter fun p =>
            (t.port p).present && decide ((t.port p).role = .access ∨ (t.port p).role = .teacher) &&
              decide ((t.port p).guard ≠ .down ∧ (t.port p).guard ≠ .disabled)
        else []) ∧
      (∀ p, (s.port p).role = .uplink → (s.port p).guard = .listen →
        (s.glink.state = .up → ListenBooked p (¬ Involved t p) s t) ∧
        (s.glink.state = .unresponsive → t.port p = s.port p)) ∧
      (OptSound s → LetSound s →
        (∀ i e, s.probe.opt.get i = some e →
          e.phase ≠ .out s.clock.stamp ∧ (e.round = r ∨ e.round + 1 = r)) →
        t.evidence = s.evidence ∧
        (∀ q, ¬((s.port q).role = .uplink ∧ (s.port q).guard = .listen) → t.port q = s.port q) ∧
        (s.glink.state = .unresponsive → t.reports = s.reports) ∧
        (s.glink.state = .up →
          ∀ done : List Port, done.Pairwise (· < ·) →
            (∀ p, p ∈ done ↔ (s.port p).role = .uplink ∧ LeavesListen p (¬ Involved s p) s) →
            t.reports = (done.foldl (fun u p => report (listenDone p s) u) s).reports))

/-- A probe's expiry ends its entry and withdraws the evidence it did not renew, and no other (R50, R68).  The victims
that no remaining entry names are given evidence-gone in ascending order (R67, R88, R97), and the listen bookkeeping of
an ACCESS or TEACHER egress follows (R84).  The expiry is a command of its own (log entry 5). -/
def Obligations.ProbeExpiryWithdrawsEvidence : Prop :=
  ∀ (s : State) (i : Fin 32) (e : OptEntry), OptSound s → LetSound s →
    s.probe.opt.get i = some e → (dueSlots s).head? = some i →
    ∃ t, exec .probeExpiry s = .next t ∧
      OnlyChanges [.ports, .evidence, .trap, .reports, .probe] s t ∧
      t.probe.opt.get i = none ∧ (∀ j, j ≠ i → t.probe.opt.get j = s.probe.opt.get j) ∧
      t.probe.list = s.probe.list ∧
      (∀ j, t.evidence.slots.get j =
        match s.evidence.slots.get j with
        | none => none
        | some l => if l.egress = e.egress ∧ l.ingress ∉ e.caught then none else some l) ∧
      ∀ gone : List Port, gone.Pairwise (· < ·) →
        (∀ v, v ∈ gone ↔
          (∃ j l, s.evidence.slots.get j = some l ∧ l.egress = e.egress ∧ l.ingress ∉ e.caught ∧
            l.victim = some v) ∧ ¬ Named t v) →
        ∃ u, OnlyChanges [.ports, .reports] s u ∧ EvidenceGone gone s u ∧
          (∀ q, q ≠ e.egress → t.port q = u.port q) ∧
          ((s.port e.egress).role.probed = false → t.port e.egress = u.port e.egress ∧ t.reports = u.reports) ∧
          ((s.port e.egress).role.probed = true →
            let clean : Prop := e.caught = [] ∧ ¬ Involved t e.egress
            ListenBooked e.egress clean u t ∧
            (LeavesListen e.egress clean u → t.reports = (report (listenDone e.egress u) u).reports) ∧
            (¬ LeavesListen e.egress clean u → t.reports = u.reports))

/-- The listen bookkeeping of a clean expiry: the count rises, and at nLSN the port leaves LISTEN for FORWARD,
or for THROTTLE with its trip flag set (R84, R85, R91).  At an expiry that is not clean the count becomes 0 (R84): the
probe was caught, or the port is the ingress of an entry that the expiry leaves standing. -/
def Obligations.CleanExpiryCountsTowardsForward : Prop :=
  (∀ (s : State) (i : Fin 32) (e : OptEntry), OptSound s → LetSound s →
    s.probe.opt.get i = some e → (dueSlots s).head? = some i → e.caught = [] →
    (s.port e.egress).role.probed = true → (s.port e.egress).guard = .listen →
    (∀ j l, s.evidence.slots.get j = some l → l.egress ≠ e.egress ∧ l.ingress ≠ e.egress) →
    let n := min 7 ((s.port e.egress).listen + 1)
    ∃ t, exec .probeExpiry s = .next t ∧
      (n < s.control.policy.nLSN →
        (t.port e.egress).guard = .listen ∧ (t.port e.egress).listen = n ∧ t.reports = s.reports) ∧
      (s.control.policy.nLSN ≤ n →
        (t.port e.egress).listen = 0 ∧
        (t.port e.egress).guard = (if (s.port e.egress).trip then .throttle else .forward) ∧
        (t.port e.egress).throttleHold =
          (if (s.port e.egress).trip then (s.control.policy.rowOf (s.port e.egress).role).nthr else 0) ∧
        t.reports =
          (report (.state e.egress .listen (if (s.port e.egress).trip then .throttle else .forward)
            .listenDone) s).reports) ∧
      ∀ q, q ≠ e.egress → t.port q = s.port q) ∧
  ∀ (s : State) (i : Fin 32) (e : OptEntry), OptSound s → LetSound s →
    s.probe.opt.get i = some e → (dueSlots s).head? = some i →
    (s.port e.egress).role.probed = true → (s.port e.egress).guard = .listen →
    (e.caught ≠ [] ∨
      ∃ j l, s.evidence.slots.get j = some l ∧ l.egress ≠ e.egress ∧ l.ingress = e.egress) →
    ∃ t, exec .probeExpiry s = .next t ∧ t.port e.egress = { s.port e.egress with listen := 0 }

/-- The ends of the throttle hold, of the hold and of a decay stretch (R92, R96, R101), each judged by a command of
its own after the interval event has marked it due (log entry 5). -/
def Obligations.CountsThatEndAreJudged : Prop :=
  (∀ (s : State) (p : Port), LetSound s → (s.port p).throttleDue = true → (s.port p).guard = .throttle →
    (s.port p).throttleHold = 0 → (s.port p).trip = false →
    (∀ q, q < p → (s.port q).throttleDue = false ∧ (s.port q).holdDue = false ∧ (s.port q).decayDue = false) →
    ∀ g : GuardState, (Named s p → g = .suspect) → (¬ Named s p → g = .forward) →
      ∃ t, exec (.throttleHoldExpiry p) s = .next t ∧
        OnlyChanges [.ports, .reports] s t ∧
        (t.port p).guard = g ∧ (t.port p).decay = 0 ∧ (t.port p).strike = (s.port p).strike ∧
        (t.port p).throttleHold = 0 ∧ (∀ q, q ≠ p → t.port q = s.port q) ∧
        t.reports = (report (.state p .throttle g .clear) s).reports) ∧
  (∀ (s : State) (p : Port), LetSound s → (s.port p).holdDue = true → (s.port p).guard = .blocked →
    (s.port p).hold = 0 →
    (∀ q, q < p → (s.port q).throttleDue = false ∧ (s.port q).holdDue = false ∧ (s.port q).decayDue = false) →
    (¬ Named s p →
      ∃ t, exec (.holdExpiry p) s = .next t ∧
        OnlyChanges [.ports, .reports] s t ∧
        (t.port p).guard = .listen ∧ (t.port p).listen = 0 ∧ (t.port p).hold = 0 ∧
        (t.port p).strike = (s.port p).strike ∧ (∀ q, q ≠ p → t.port q = s.port q) ∧
        t.reports = (report (.state p .blocked .listen .release) s).reports) ∧
    (Named s p →
      ∃ t, exec (.holdExpiry p) s = .next t ∧
        OnlyChanges [.ports] s t ∧
        t.port p = { s.port p with holdDue := false } ∧ (∀ q, q ≠ p → t.port q = s.port q))) ∧
  ∀ (s : State) (p : Port), (s.port p).decayDue = true →
    exec (.strikeDecay p) s =
      .next (s.setPort p { s.port p with strike := (s.port p).strike - 1, decay := 0, decayDue := false })

/-- The fall from MANAGED at the end of the host-lost count (R103, R147, R148), marked due by the interval event (log
entry 5). -/
def Obligations.HostLostFallsToAutonomous : Prop :=
  ∀ s : State, s.control.mode = .managed → s.control.hostLostDue = true →
    ∃ t, exec .hostLost s = .next t ∧
      OnlyChanges [.ports, .evidence, .trap, .reports, .probe, .control] s t ∧
      t.control =
        { s.control with
          mode := .autonomous
          hostLost := 0
          hostLostDue := false
          policy := s.settings.readPolicy } ∧
      (∀ p, (t.port p).override = .noOverride ∧ (t.port p).role = s.settings.readRoles.get p) ∧
      (report (.mode .managed .autonomous .hostLost) s).reports.queue <+: t.reports.queue

/-! ### The Flood Meter -/

/-- A taken DIGEST: the three steps of the update (R22, R27, R28, R29).  For E from 2 to 7 without excess the average
follows R28's formula, not its clause 'to 0 from any value of 7 or less': the model's reading (log entry 22). -/
def Obligations.TakenDigestUpdatesTheMeter : Prop :=
  ∀ (s : State) (p : Port) (stamp : Byte) (f : BitVec 16),
    s.control.loading = false → s.meter.takingStamp = some stamp →
    (s.port p).present = true → (s.port p).linkUp = true → (s.port p).role ≠ .unused →
    (s.port p).mark ≠ .taken →
    let m := s.control.policy.rowOf (s.port p).role
    let x := f.toNat - m.a - (s.port p).creditB
    let e := (7 * (s.port p).avgE + 256 * x) / 8
    ∃ t, exec (.digest (portField p) stamp f) s = .next t ∧
      OnlyChanges [.ports, .evidence, .trap, .reports, .control, .glink, .arbiter] s t ∧
      (t.port p).lastF = f.toNat ∧ (t.port p).mark = .taken ∧ (t.port p).avgE = e ∧
      (t.port p).creditB =
        (if m.a < f.toNat then (s.port p).creditB - (f.toNat - m.a)
        else min m.bmax ((s.port p).creditB + m.r)) ∧
      ((t.port p).trip = true ↔
        if (s.port p).trip then 256 * m.tclear ≤ e else 256 * m.ttrip ≤ e) ∧
      t.glink.state = .up ∧
      ∀ q, q ≠ p →
        (t.port q).lastF = (s.port q).lastF ∧ (t.port q).avgE = (s.port q).avgE ∧
        (t.port q).creditB = (s.port q).creditB ∧ (t.port q).trip = (s.port q).trip ∧
        (t.port q).mark = (s.port q).mark

/-- A DIGEST that is not taken changes one count at most (R22). -/
def Obligations.UntakenDigestIsCounted : Prop :=
  ∀ (s : State) (p : Port) (stamp : Byte) (f : BitVec 16),
    s.control.loading = false → s.glink.state = .up →
    (s.meter.takingStamp = none → exec (.digest (portField p) stamp f) s = .next s.received) ∧
    ∀ k, s.meter.takingStamp = some k →
      ((s.port p).metered = false ∨ stamp ≠ k ∨ (s.port p).mark = .taken) →
      exec (.digest (portField p) stamp f) s =
        .next { s.received with
          meter := { s.meter with lateOrDuplicate := min 65535 (s.meter.lateOrDuplicate + 1) } }

/-- A DIGEST that trips a port (R29, R30, R64, R89 to R91, R150): named by no evidence the port is throttled; otherwise the
storm interlock confirms every entry of the port and blocks their victims, and a port it has not blocked goes on to the
Port Guard.  A DIGEST that clears a port lets it leave a throttle whose hold has ended (R93).  That the MODE record of a
wake comes before the records of the event is log entry 10. -/
def Obligations.TripAndClearEvents : Prop :=
  (∀ (s : State) (p : Port) (stamp : Byte) (f : BitVec 16),
    DigestTaken p stamp s → LetSound s → s.reports.watch = none → ¬ Involved s p →
    (s.port p).trip = false → ((s.port p).guard = .forward ∨ (s.port p).guard = .suspect) →
    256 * (s.rowAt p).ttrip ≤ nextAverage p f s →
    ∃ t, exec (.digest (portField p) stamp f) s = .next t ∧
      OnlyChanges [.ports, .reports, .control, .glink] s t ∧
      (t.port p).guard = .throttle ∧ (t.port p).trip = true ∧
      (t.port p).throttleHold = (s.rowAt p).nthr ∧ (t.port p).decay = 0 ∧
      (t.port p).wanted = wantedOf (s.port p).override .throttle ∧
      (∀ q, q ≠ p → t.port q = s.port q) ∧
      t.control = (s.woken .trip p).control ∧
      t.reports = (report (.state p (s.port p).guard .throttle .trip) (s.woken .trip p)).reports) ∧
  (∀ (s : State) (p : Port) (stamp : Byte) (f : BitVec 16),
    DigestTaken p stamp s → LetSound s → (s.port p).trip = false →
    256 * (s.rowAt p).ttrip ≤ nextAverage p f s →
    let has : LetEntry → Prop := fun e => e.egress = p ∨ e.ingress = p
    ∃ t, exec (.digest (portField p) stamp f) s = .next t ∧
      OnlyChanges [.ports, .reports, .control, .evidence, .glink] s t ∧
      (t.port p).trip = true ∧
      t.control = (s.woken .trip p).control ∧
      (s.woken .trip p).reports.queue <+: t.reports.queue ∧
      (∀ i, s.evidence.slots.get i = none → t.evidence.slots.get i = none) ∧
      (∀ i e, s.evidence.slots.get i = some e →
        (has e →
          t.evidence.slots.get i =
            some { e with count := max e.count s.control.policy.nCONF, confirmed := true }) ∧
        (¬ has e → t.evidence.slots.get i = some e)) ∧
      (∀ i e v, s.evidence.slots.get i = some e → has e → e.victim = some v →
        ((s.port v).guard = .listen ∨ (s.port v).guard = .forward ∨ (s.port v).guard = .suspect ∨
          (s.port v).guard = .throttle) →
        (t.port v).guard = .blocked ∧ (t.port v).strike = min 6 ((s.port v).strike + 1) ∧
        (t.port v).hold = s.control.policy.tHOLD0 * 2 ^ (min 6 ((s.port v).strike + 1) - 1)) ∧
      ((∀ i e, s.evidence.slots.get i = some e → has e → e.victim ≠ some p) →
        ((s.port p).guard = .forward ∨ (s.port p).guard = .suspect →
          (t.port p).guard = .throttle ∧ (t.port p).throttleHold = (s.rowAt p).nthr) ∧
        ((s.port p).guard = .throttle →
          (t.port p).guard = .throttle ∧ (t.port p).throttleHold = (s.rowAt p).nthr) ∧
        ((s.port p).guard = .listen → (t.port p).guard = .listen ∧ (t.port p).listen = 0) ∧
        ((s.port p).guard = .blocked → (t.port p).guard = .blocked ∧ (t.port p).hold = (s.port p).hold)) ∧
      ∀ q, q ≠ p → (∀ i e, s.evidence.slots.get i = some e → has e → e.victim ≠ some q) →
        t.port q = s.port q) ∧
  ∀ (s : State) (p : Port) (stamp : Byte) (f : BitVec 16),
    DigestTaken p stamp s → LetSound s → s.reports.watch = none → (s.port p).trip = true →
    nextAverage p f s < 256 * (s.rowAt p).tclear →
    ∃ t, exec (.digest (portField p) stamp f) s = .next t ∧
      OnlyChanges [.ports, .reports, .glink] s t ∧
      (t.port p).trip = false ∧ (∀ q, q ≠ p → t.port q = s.port q) ∧
      (∀ g : GuardState, (Named s p → g = .suspect) → (¬ Named s p → g = .forward) →
        (s.port p).guard = .throttle → (s.port p).throttleHold = 0 →
        (t.port p).guard = g ∧ t.reports = (report (.state p .throttle g .clear) s).reports) ∧
      (¬((s.port p).guard = .throttle ∧ (s.port p).throttleHold = 0) →
        (t.port p).guard = (s.port p).guard ∧ (t.port p).throttleHold = (s.port p).throttleHold ∧
        t.reports = s.reports)

/-! ### Probes and evidence -/

/-- A CATCH that is not credited: foreign, malformed, late or a repeat (R47); a repeat wakes a part in REST (R48, R150). -/
def Obligations.CatchIsJudgedInOrder : Prop :=
  ∀ (s : State) (y x : PortField) (r : Round) (d : Identity),
    s.control.loading = false → s.glink.state = .up →
    (d ≠ s.identity →
      exec (.catchRecord y x r d) s =
        .next { s.received with probe := { s.probe with foreign := min 65535 (s.probe.foreign + 1) } }) ∧
    (d = s.identity → (28 ≤ x.toNat ∨ 28 ≤ y.toNat) →
      exec (.catchRecord y x r d) s =
        .next { s.received with probe := { s.probe with malformed := min 65535 (s.probe.malformed + 1) } }) ∧
    ∀ xp yp : Port, d = s.identity → x = portField xp → y = portField yp →
      (((s.port yp).present = false ∨ (s.port yp).linkUp = false) →
        exec (.catchRecord y x r d) s =
          .next { s.received with probe := { s.probe with lateCatch := min 65535 (s.probe.lateCatch + 1) } }) ∧
      ((s.port yp).present = true → (s.port yp).linkUp = true → OptSound s →
        (∀ i e, s.probe.opt.get i = some e → ¬(e.round = r ∧ e.egress = xp)) →
        exec (.catchRecord y x r d) s =
          .next { s.received with probe := { s.probe with lateCatch := min 65535 (s.probe.lateCatch + 1) } }) ∧
      ((s.port yp).present = true → (s.port yp).linkUp = true → OptSound s →
        ∀ i e, s.probe.opt.get i = some e → e.round = r → e.egress = xp → yp ∈ e.caught →
          (∀ j f, s.probe.opt.get j = some f → f.round = r → f.egress = xp → j = i) →
          exec (.catchRecord y x r d) s = .next (s.woken .caught yp).received)

/-- A credited catch joins the caught set, and its pair stands in the evidence with its count raised or new
(R47, R48, R59, R60).  A new entry takes the lowest free slot, or the evicted one (R61): the victim of an evicted entry
that no entry names is given evidence-gone, then the new victim evidence, then comes the check for confirmation (R60,
R63, R65, R87, R88).  In REST the wake comes first (R150; its MODE record's place is log entry 10). -/
def Obligations.CreditedCatchBecomesEvidence : Prop :=
  (∀ (s : State) (yp : Port) (i : Fin 32) (e : OptEntry),
    s.control.loading = false → OptSound s → LetSound s →
    (s.port yp).present = true → (s.port yp).linkUp = true →
    s.probe.opt.get i = some e → yp ∉ e.caught →
    (∀ j f, s.probe.opt.get j = some f → f.round = e.round → f.egress = e.egress → j = i) →
    ∃ t, exec (.catchRecord (portField yp) (portField e.egress) e.round s.identity) s = .next t ∧
      t.probe.opt.get i = some { e with caught := insertPort yp e.caught } ∧
      (∀ z, z ∈ insertPort yp e.caught ↔ z = yp ∨ z ∈ e.caught) ∧
      (∀ j, j ≠ i → t.probe.opt.get j = s.probe.opt.get j) ∧
      (s.control.mode = .rest → t.control.mode = .managed) ∧
      (s.control.mode ≠ .rest → t.control = s.control) ∧
      ((∃ j l, s.evidence.slots.get j = some l ∧ l.egress = e.egress ∧ l.ingress = yp) →
        ∃ j l l', s.evidence.slots.get j = some l ∧ l.egress = e.egress ∧ l.ingress = yp ∧
          t.evidence.slots.get j = some l' ∧ l'.egress = e.egress ∧ l'.ingress = yp ∧
          min 7 (l.count + 1) ≤ l'.count ∧ l'.victim = l.victim ∧ l'.firstSeen = l.firstSeen) ∧
      ((¬ ∃ j l, s.evidence.slots.get j = some l ∧ l.egress = e.egress ∧ l.ingress = yp) →
        ∃ j l', t.evidence.slots.get j = some l' ∧ l'.egress = e.egress ∧ l'.ingress = yp ∧
          1 ≤ l'.count ∧ l'.firstSeen = s.clock.stamp ∧ l'.victim = chooseVictim e.egress yp s)) ∧
  ∀ (s : State) (yp : Port) (i : Fin 32) (e : OptEntry) (m : Fin 16),
    s.control.loading = false → s.glink.state = .up → OptSound s → LetSound s →
    (s.port yp).present = true → (s.port yp).linkUp = true →
    s.probe.opt.get i = some e → yp ∉ e.caught →
    (∀ j f, s.probe.opt.get j = some f → f.round = e.round → f.egress = e.egress → j = i) →
    (∀ j l, s.evidence.slots.get j = some l → ¬(l.egress = e.egress ∧ l.ingress = yp)) →
    (s.evidence.slots.get m = none ∧ (∀ j, j < m → (s.evidence.slots.get j).isSome = true) ∨
      (∀ j, (s.evidence.slots.get j).isSome = true) ∧ evictChoice s = some m) →
    let v := chooseVictim e.egress yp s
    let confirms : Prop :=
      s.control.policy.nCONF ≤ 1 ∨ (s.port e.egress).trip = true ∨ (s.port yp).trip = true
    let count := max 1 s.control.policy.nCONF
    ∃ t, exec (.catchRecord (portField yp) (portField e.egress) e.round s.identity) s = .next t ∧
      OnlyChanges [.ports, .reports, .evidence, .probe, .control, .glink] s t ∧
      t.control = (s.woken .caught yp).control ∧
      (¬ confirms → t.evidence.slots.get m = some ⟨e.egress, yp, 1, s.clock.stamp, v, false, true⟩) ∧
      (confirms → t.evidence.slots.get m = some ⟨e.egress, yp, count, s.clock.stamp, v, true, true⟩) ∧
      (∀ k, k ≠ m → t.evidence.slots.get k = s.evidence.slots.get k) ∧
      t.evidence.evictions =
        (if (s.evidence.slots.get m).isSome then min 65535 (s.evidence.evictions + 1) else s.evidence.evictions) ∧
      ∀ gone : List Port, gone.Pairwise (· < ·) →
        (∀ z, z ∈ gone ↔ (∃ l, s.evidence.slots.get m = some l ∧ l.victim = some z) ∧ ¬ Named t z) →
        ∃ u x, OnlyChanges [.ports, .reports] (s.woken .caught yp) u ∧ OnlyChanges [.ports, .reports] u x ∧
          EvidenceGone gone (s.woken .caught yp) u ∧ EvidenceGiven v u x ∧
          (¬ confirms → t.ports = x.ports ∧ t.reports = x.reports) ∧
          (confirms → FirstConfirmed v e.egress yp count x t)

/-- A credited catch that proves a standing pair often enough blocks its victim, with the strike and the hold
of R95, and reports it (R63, R65, R66, R90, R95).  In REST the wake comes first (R150; its MODE record's place is log
entry 10). -/
def Obligations.ConfirmationBlocksTheVictim : Prop :=
  ∀ (s : State) (yp v : Port) (i : Fin 32) (e : OptEntry) (j : Fin 16) (l : LetEntry),
    s.control.loading = false → s.glink.state = .up → OptSound s → LetSound s →
    (s.port yp).present = true → (s.port yp).linkUp = true →
    s.probe.opt.get i = some e → yp ∉ e.caught →
    (∀ k f, s.probe.opt.get k = some f → f.round = e.round → f.egress = e.egress → k = i) →
    s.evidence.slots.get j = some l → l.egress = e.egress → l.ingress = yp →
    (∀ k f, s.evidence.slots.get k = some f → f.egress = e.egress → f.ingress = yp → k = j) →
    l.victim = some v →
    ((s.port v).guard = .listen ∨ (s.port v).guard = .forward ∨ (s.port v).guard = .suspect ∨
      (s.port v).guard = .throttle) →
    (s.control.policy.nCONF ≤ min 7 (l.count + 1) ∨ (s.port e.egress).trip = true ∨ (s.port yp).trip = true) →
    let count := max (min 7 (l.count + 1)) s.control.policy.nCONF
    let strike := min 6 ((s.port v).strike + 1)
    ∃ t, exec (.catchRecord (portField yp) (portField e.egress) e.round s.identity) s = .next t ∧
      OnlyChanges [.ports, .reports, .evidence, .probe, .control, .glink] s t ∧
      t.control = (s.woken .caught yp).control ∧
      (t.port v).guard = .blocked ∧ (t.port v).strike = strike ∧
      (t.port v).hold = s.control.policy.tHOLD0 * 2 ^ (strike - 1) ∧
      (t.port v).listen = 0 ∧ (t.port v).throttleHold = 0 ∧ (t.port v).decay = 0 ∧
      (∀ q, q ≠ v → t.port q = s.port q) ∧
      t.evidence.slots.get j = some { l with count := count, confirmed := true } ∧
      (∀ k, k ≠ j → t.evidence.slots.get k = s.evidence.slots.get k) ∧
      t.reports =
        (report (.loop v e.egress yp count strike)
          (report (.state v (s.port v).guard .blocked .confirm) (s.woken .caught yp))).reports

/-- The victim of a new entry (R9, R62), and the entry that a full table evicts (R61). -/
def Obligations.VictimAndEvictionChoice : Prop :=
  (∀ (s : State) (x y : Port),
    (x = y → (s.port x).role = .access → chooseVictim x y s = some x) ∧
    (x = y → (s.port x).role ≠ .access → chooseVictim x y s = none) ∧
    (x ≠ y → (s.port x).role = .access → (s.port y).role = .access →
      chooseVictim x y s = some (if s.order.idxOf x < s.order.idxOf y then y else x)) ∧
    (x ≠ y → (s.port x).role = .access → (s.port y).role ≠ .access → chooseVictim x y s = some x) ∧
    (x ≠ y → (s.port x).role ≠ .access → (s.port y).role = .access → chooseVictim x y s = some y) ∧
    (x ≠ y → (s.port x).role ≠ .access → (s.port y).role ≠ .access → chooseVictim x y s = none)) ∧
  ∀ s : State, (∀ i, (s.evidence.slots.get i).isSome = true) →
    ∃ i e, evictChoice s = some i ∧ s.evidence.slots.get i = some e ∧
      ∀ j f, s.evidence.slots.get j = some f →
        e.count < f.count ∨
          (e.count = f.count ∧
            ((s.clock.stamp - f.firstSeen).toNat < (s.clock.stamp - e.firstSeen).toNat ∨
              ((s.clock.stamp - f.firstSeen).toNat = (s.clock.stamp - e.firstSeen).toNat ∧ i ≤ j)))

/-! ### Links -/

/-- A link-up event (R3, R5, R8), which wakes a part in REST (R150, R151; the place of its MODE record is log entry
10). -/
def Obligations.LinkUpJoinsTheOrder : Prop :=
  ∀ (s : State) (p : Port),
    s.control.loading = false → s.glink.state = .up →
    (s.port p).present = true → (s.port p).linkUp = false →
    ∃ t, exec (.link (portField p) true) s = .next t ∧
      OnlyChanges [.ports, .order, .reports, .control, .glink] s t ∧
      (t.port p).linkUp = true ∧
      t.order = s.order.filter (fun q => decide (q ≠ p)) ++ [p] ∧
      t.control = (s.woken .linkUp p).control ∧
      ((s.port p).guard = .down →
        (t.port p).guard = .listen ∧ (t.port p).listen = 0 ∧
        t.reports = (report (.state p .down .listen .linkUp) (s.woken .linkUp p)).reports) ∧
      ((s.port p).guard ≠ .down →
        t.port p = { s.port p with linkUp := true } ∧ t.reports = (s.woken .linkUp p).reports) ∧
      (t.port p).strike = (s.port p).strike ∧ (t.port p).avgE = (s.port p).avgE ∧
      (t.port p).creditB = (s.port p).creditB ∧ (t.port p).trip = (s.port p).trip ∧
      ∀ q, q ≠ p → t.port q = s.port q

/-- A link-down event and its clean-ups (R3, R6, R32, R42, R53, R70, R72): the entries of the port and those that fail
their parity check leave the two tables, and every other entry stays.  Where none fails, the victims that no remaining
entry names are given evidence-gone in ascending order (R67, R88, R97). -/
def Obligations.LinkDownCleansUp : Prop :=
  ∀ (s : State) (p : Port),
    s.control.loading = false → s.glink.state = .up →
    (s.port p).present = true → (s.port p).linkUp = true → (s.port p).guard ≠ .down →
    ∃ t, exec (.link (portField p) false) s = .next t ∧
      OnlyChanges [.ports, .order, .reports, .trap, .evidence, .probe, .glink] s t ∧
      (t.port p).linkUp = false ∧ t.order = s.order.filter (fun q => decide (q ≠ p)) ∧
      (t.port p).guard = (if (s.port p).guard = .disabled then .disabled else .down) ∧
      (t.port p).strike = (s.port p).strike ∧ (t.port p).override = (s.port p).override ∧
      (t.port p).avgE = 0 ∧ (t.port p).creditB = (s.rowAt p).bmax ∧ (t.port p).trip = false ∧
      (t.port p).throttleHold = 0 ∧ (t.port p).mark = .idle ∧ (t.port p).lastF = (s.port p).lastF ∧
      ((s.port p).guard ≠ .disabled →
        (t.port p).hold = 0 ∧ (t.port p).listen = 0 ∧ (t.port p).decay = 0 ∧
        (report (.state p (s.port p).guard .down .linkDown) s).reports.queue <+: t.reports.queue) ∧
      t.probe.list = s.probe.list.filter (fun q => decide (q ≠ p)) ∧ t.probe.skipped = s.probe.skipped ∧
      (∀ i e, t.probe.opt.get i = some e ↔
        s.probe.opt.get i = some e ∧ e.parityOk = true ∧ e.egress ≠ p) ∧
      (∀ i e, t.evidence.slots.get i = some e ↔
        s.evidence.slots.get i = some e ∧ e.parityOk = true ∧ e.egress ≠ p ∧ e.ingress ≠ p) ∧
      (OptSound s → LetSound s →
        ∀ gone : List Port, gone.Pairwise (· < ·) →
          (∀ v, v ∈ gone ↔
            (∃ j l, s.evidence.slots.get j = some l ∧ (l.egress = p ∨ l.ingress = p) ∧ l.victim = some v) ∧
              ¬ Named t v) →
          ∃ u, OnlyChanges [.ports, .reports] s u ∧ (∀ q, q ≠ p → u.port q = s.port q) ∧ u.port p = t.port p ∧
            ((s.port p).guard = .disabled → u.reports = s.reports) ∧
            ((s.port p).guard ≠ .disabled →
              u.reports = (report (.state p (s.port p).guard .down .linkDown) s).reports) ∧
            EvidenceGone gone u t)

/-- Records that reach no block, or that find nothing to change: a repeated link report, a port of 28 to 31, a
record of unknown kind, an early sync, a stray ACK (R3, R106, R107, R108, R113). -/
def Obligations.RecordsWithoutABlock : Prop :=
  (∀ (s : State) (p : Port) (up : Bool), s.control.loading = false → s.glink.state = .up →
    ((s.port p).present = false ∨ (s.port p).linkUp = up) →
    exec (.link (portField p) up) s = .next s.received) ∧
  (∀ (s : State) (f : PortField) (b : Byte) (n : BitVec 16) (up : Bool),
    s.control.loading = false → s.glink.state = .up → 28 ≤ f.toNat →
    let t := { s with glink := { s.glink with rx := .hunt, badPorts := min 65535 (s.glink.badPorts + 1) } }
    exec (.digest f b n) s = .next t ∧ exec (.link f up) s = .next t) ∧
  (∀ (s : State) (w : Record), decodeRecord w = none →
    exec (.unknownRecord w) s =
      .next { s with
        glink := { s.glink with rx := .hunt, unknownRecords := min 65535 (s.glink.unknownRecords + 1) } }) ∧
  (∀ (s : State) (bits : List Bool), s.glink.rx = .hunt ∨ s.glink.rx = .receiving [] →
    1 ≤ bits.length → bits.length ≤ 63 →
    exec (.framingError bits) s =
      .next { s with
        glink :=
          { s.glink with rx := .receiving [], framingErrors := min 65535 (s.glink.framingErrors + 1) } }) ∧
  ∀ (s : State) (f : PortField) (ok up : Bool), s.control.loading = false → s.glink.state = .up →
    (∀ o, s.glink.outstanding = some o → o.timerRunning = false ∨ portField o.port ≠ f) →
    exec (.ack f ok up) s =
      .next { s with
        arbiter := { s.arbiter with consecutive := 0, faultRun := 0 }
        glink := { s.glink with rx := .hunt, strayAcks := min 65535 (s.glink.strayAcks + 1) } }

/-- A valid record taken while the link is UNRESPONSIVE returns it to UP, reports it first, and ends the
pacing (R117, R136). -/
def Obligations.ValidRecordReturnsTheLink : Prop :=
  ∀ (s : State) (f x : PortField) (b : Byte) (n : BitVec 16) (r : Round) (d : Identity) (ok up : Bool),
    s.control.loading = false → s.glink.state = .unresponsive →
    ∀ c k, (c, k) ∈
        [(Instr.digest f b n, InboundKind.digest), (.catchRecord f x r d, .catchRecord), (.link f up, .link),
          (.ack f ok up, .ack)] →
      ∃ t, exec c s = .next t ∧ t.glink.state = .up ∧ t.arbiter.pacing = false ∧
        t.arbiter.allowance = false ∧ t.arbiter.faultRun = 0 ∧ t.glink.rx = .hunt ∧
        (report (.linkFaultUp f k) s).reports.queue <+: t.reports.queue

/-! ### The command channel -/

/-- ACK OK to a SETPORT: the value sent is confirmed (R113, R129), its link status is then applied as a LINK record's
(R4; the order of the two is log entry 11), and in START the port leaves the sweep (R143); the last port of the sweep ends
START (LastAnswerEndsStart). -/
def Obligations.AckConfirmsTheSwitchState : Prop :=
  ∀ (s : State) (p previous : Port) (w : SwitchState) (up : Bool),
    s.control.loading = false → s.glink.state = .up →
    s.glink.outstanding = some ⟨.setport previous, p, true⟩ → (s.port p).inFlight = some w →
    let u : State :=
      { s.setPort p
        { s.port p with
          confirmed := some w
          inFlight := none
          pendingFlag := (s.port p).present && decide (w ≠ (s.port p).wanted) } with
        arbiter := { s.arbiter with consecutive := 0, faultRun := 0 }
        glink := { s.glink with rx := .hunt, outstanding := none } }
    ∃ v, exec (.link (portField p) up) u = .next v ∧
      (up = (s.port p).linkUp → v = u) ∧
      (s.control.mode ≠ .start ∨ p ∉ s.control.sweep → exec (.ack (portField p) true up) s = .next v) ∧
      (s.control.mode = .start → p ∈ s.control.sweep → (∃ q ∈ s.control.sweep, q ≠ p) →
        exec (.ack (portField p) true up) s =
          .next { v with
            control := { v.control with sweep := s.control.sweep.filter fun q => decide (q ≠ p) } })

/-- ACK REFUSED to a SETPORT makes the port absent (R7, R130); its link status is not applied (R4), and in START the port
leaves the sweep (R143), whose last port ends START (LastAnswerEndsStart). -/
def Obligations.RefusalMakesThePortAbsent : Prop :=
  ∀ (s : State) (p previous : Port) (up : Bool),
    s.control.loading = false → s.glink.state = .up →
    (s.control.mode ≠ .start ∨ p ∉ s.control.sweep ∨ ∃ q ∈ s.control.sweep, q ≠ p) →
    s.glink.outstanding = some ⟨.setport previous, p, true⟩ →
    ∃ t, exec (.ack (portField p) false up) s = .next t ∧
      OnlyChanges [.ports, .order, .reports, .trap, .evidence, .probe, .control, .glink, .arbiter] s t ∧
      t.control =
        (if s.control.mode = .start then
          { s.control with sweep := s.control.sweep.filter fun q => decide (q ≠ p) }
        else s.control) ∧
      (t.port p).present = false ∧ (t.port p).override = .noOverride ∧ (t.port p).linkUp = false ∧
      (t.port p).guard = .disabled ∧ (t.port p).confirmed = none ∧ (t.port p).inFlight = none ∧
      (t.port p).pendingFlag = false ∧ (t.port p).strike = (s.port p).strike ∧
      (t.port p).role = (s.port p).role ∧
      ((s.port p).guard ≠ .disabled →
        (report (.state p (s.port p).guard .disabled .absent) s).reports.queue <+: t.reports.queue) ∧
      t.order =
        (if (s.port p).linkUp then s.order.filter (fun q => decide (q ≠ p)) else s.order) ∧
      t.glink.outstanding = none ∧
      t.arbiter = { s.arbiter with consecutive := 0, faultRun := 0 }

/-- The two answers to an INJECT (R45, R46, R131), and their link status, applied as a LINK record's (R4; the order of the
two is log entry 11). -/
def Obligations.AckOfAProbe : Prop :=
  ∀ (s : State) (p : Port) (r : Round) (i : Fin 32) (e : OptEntry) (up : Bool),
    s.control.loading = false → s.glink.state = .up → OptSound s →
    s.glink.outstanding = some ⟨.inject r, p, true⟩ →
    s.probe.opt.get i = some e → e.round = r → e.egress = p →
    (∀ j f, s.probe.opt.get j = some f → f.round = r → f.egress = p → j = i) →
    let base : State :=
      { s with
        arbiter := { s.arbiter with consecutive := 0, faultRun := 0 }
        glink := { s.glink with rx := .hunt, outstanding := none } }
    let sent : State :=
      { base with
        probe :=
          { s.probe with
            opt := s.probe.opt.set i.val
              (some { e with phase := .out (s.clock.stamp + BitVec.ofNat 32 s.control.policy.tEXP) })
              i.isLt } }
    let refused : State :=
      { base with
        probe :=
          { s.probe with
            opt := s.probe.opt.set i.val none i.isLt
            skipped := min 65535 (s.probe.skipped + 1) } }
    exec (.ack (portField p) true up) s = exec (.link (portField p) up) sent ∧
    exec (.ack (portField p) false up) s = exec (.link (portField p) up) refused ∧
    (up = (s.port p).linkUp →
      exec (.ack (portField p) true up) s = .next sent ∧ exec (.ack (portField p) false up) s = .next refused)

/-- A grant of a SETPORT (R127). -/
def Obligations.SetportGrant : Prop :=
  ∀ (s : State) (p : Port), nextGrant s = some (.setport p) →
    ∃ t, exec .setport s = .next t ∧
      OnlyChanges [.ports, .arbiter, .glink] s t ∧
      t.port p = { s.port p with inFlight := some (s.port p).wanted, pendingFlag := false } ∧
      (∀ q, q ≠ p → t.port q = s.port q) ∧
      t.arbiter =
        { s.arbiter with
          pointer := p
          allowance := if s.arbiter.pacing then false else s.arbiter.allowance } ∧
      t.glink =
        { s.glink with
          outstanding := some ⟨.setport s.arbiter.pointer, p, false⟩
          sending := (s.glink.sending.orElse fun _ => some (.setport p (s.port p).wanted))
          waiting :=
            if s.glink.sending.isSome then some (.setport p (s.port p).wanted) else s.glink.waiting }

/-- The classes of R124, and the choice of the next grant by class and search (R125, R126); there is none while a
command is outstanding or pacing withholds it. -/
def Obligations.GrantChoice : Prop :=
  (∀ r : PortRec,
    (r.pendingFlag = false → classOf r = none) ∧
    (r.pendingFlag = true →
      (r.confirmed = none → classOf r = some .tightening) ∧
      (r.confirmed = some .opened → r.wanted = .floodcut ∨ r.wanted = .hold → classOf r = some .tightening) ∧
      (r.confirmed = some .floodcut → r.wanted = .hold → classOf r = some .tightening) ∧
      (r.confirmed = some .floodcut → r.wanted = .opened → classOf r = some .loosening) ∧
      (r.confirmed = some .hold → r.wanted = .opened ∨ r.wanted = .floodcut →
        classOf r = some .loosening))) ∧
  (∀ s : State, s.control.loading = false → s.glink.outstanding = none →
    (s.arbiter.pacing = true → s.arbiter.allowance = true) →
    let far : Port → Nat := fun p => (p - (s.arbiter.pointer + 1)).val
    (∀ p, classOf (s.port p) = some .tightening →
      (∀ q, classOf (s.port q) = some .tightening → far p ≤ far q) → nextGrant s = some (.setport p)) ∧
    ((∀ q, classOf (s.port q) ≠ some .tightening) →
      (∀ p rest, s.probe.list = p :: rest → nextGrant s = some (.probe p)) ∧
      (s.probe.list = [] →
        (∀ p, classOf (s.port p) = some .loosening →
          (∀ q, classOf (s.port q) = some .loosening → far p ≤ far q) → nextGrant s = some (.setport p)) ∧
        ((∀ q, classOf (s.port q) ≠ some .loosening) → nextGrant s = none)))) ∧
  ∀ s : State, (s.glink.outstanding ≠ none ∨ (s.arbiter.pacing = true ∧ s.arbiter.allowance = false)) →
    nextGrant s = none

/-- A grant of the probe class (R44, R128). -/
def Obligations.InjectGrant : Prop :=
  ∀ (s : State) (p : Port), nextGrant s = some (.probe p) →
    s.probe.list = p :: s.probe.list.tail ∧
    ((∀ i, (s.probe.opt.get i).isSome = true) →
      exec .inject s =
        .next { s with
          probe :=
            { s.probe with list := s.probe.list.tail, skipped := min 65535 (s.probe.skipped + 1) } }) ∧
    ∀ i : Fin 32, s.probe.opt.get i = none → (∀ j, j < i → (s.probe.opt.get j).isSome = true) →
      exec .inject s =
        .next { s with
          probe :=
            { s.probe with
              list := s.probe.list.tail
              opt := s.probe.opt.set i.val (some ⟨s.clock.round.getD 0, p, .sending, [], true⟩) i.isLt }
          arbiter :=
            { s.arbiter with allowance := if s.arbiter.pacing then false else s.arbiter.allowance }
          glink :=
            { s.glink with
              outstanding := some ⟨.inject (s.clock.round.getD 0), p, false⟩
              sending :=
                (s.glink.sending.orElse fun _ => some (.inject p (s.clock.round.getD 0) s.identity))
              waiting :=
                if s.glink.sending.isSome then some (.inject p (s.clock.round.getD 0) s.identity)
                else s.glink.waiting } }

/-- The last bits of the records being sent (R110, R112). -/
def Obligations.LastBits : Prop :=
  (∀ (s : State) (a : OutRecord), s.glink.sending = some a → a.isCommand = true →
    exec .commandLastBit s =
      .next { s with
        glink :=
          { s.glink with
            outstanding := s.glink.outstanding.map fun o => { o with timerRunning := true }
            sending := s.glink.waiting
            waiting := none } }) ∧
  ∀ (s : State) (b : Byte), s.glink.sending = some (.strobe b) →
    exec .strobeLastBit s =
      .next { s with glink := { s.glink with sending := s.glink.waiting, waiting := none } }

/-- A timeout that does not bring the fault run to 3 while the link is UP (R46, R114, R132, R133). -/
def Obligations.TimeoutEndsTheCommand : Prop :=
  ∀ (s : State) (p : Port), (s.glink.state = .unresponsive ∨ s.arbiter.faultRun + 1 < 3) →
    let counted : State :=
      { s with
        arbiter :=
          { s.arbiter with
            consecutive := min 65535 (s.arbiter.consecutive + 1)
            faultRun := min 3 (s.arbiter.faultRun + 1) }
        glink :=
          { s.glink with outstanding := none, ackTimeouts := min 65535 (s.glink.ackTimeouts + 1) } }
    (∀ previous, s.glink.outstanding = some ⟨.setport previous, p, true⟩ →
      exec .ackTimeout s =
        .next { counted.setPort p
          { s.port p with confirmed := none, inFlight := none, pendingFlag := (s.port p).present } with
          arbiter := { counted.arbiter with pointer := previous } }) ∧
    ∀ r i e, s.glink.outstanding = some ⟨.inject r, p, true⟩ → OptSound s →
      s.probe.opt.get i = some e → e.round = r → e.egress = p →
      (∀ j f, s.probe.opt.get j = some f → f.round = r → f.egress = p → j = i) →
      exec .ackTimeout s =
        .next { counted with
          probe :=
            { s.probe with
              opt := s.probe.opt.set i.val none i.isLt
              skipped := min 65535 (s.probe.skipped + 1) } }

/-- The third timeout in a run makes the link UNRESPONSIVE (R51, R116, R133, R134). -/
def Obligations.ThirdTimeoutStopsTheLink : Prop :=
  ∀ (s : State) (o : Outstanding), s.glink.state = .up → s.arbiter.faultRun = 2 → OptSound s →
    s.glink.outstanding = some o → o.timerRunning = true →
    ∃ t, exec .ackTimeout s = .next t ∧
      OnlyChanges [.ports, .probe, .reports, .arbiter, .glink] s t ∧
      t.glink.state = .unresponsive ∧ t.glink.outstanding = none ∧
      (∀ p, (t.port p).confirmed = none ∧ (t.port p).pendingFlag = (t.port p).present ∧
        (t.port p).guard = (s.port p).guard ∧ (t.port p).wanted = (s.port p).wanted) ∧
      t.arbiter.pacing = true ∧ t.arbiter.allowance = false ∧ t.arbiter.faultRun = 3 ∧
      t.probe.list = [] ∧ (∀ i, t.probe.opt.get i = none) ∧
      t.reports = (report (.linkFaultDown o.port o.kind.command) s).reports

/-! ### The Management Line -/

/-- The receiver's table for a character without framing fault, and in HUNT also one with it (R153).  The character that
completes a frame brings R154's judgement at once: it does what the frame would do arriving whole at that moment, so
that a request is carried out when it is taken (R156).  That a frame may also arrive whole is log entry 3, and the level of
KEY that comes with a character log entry 4. -/
def Obligations.CharactersMoveTheReceiver : Prop :=
  ∀ (s : State) (b : Byte) (key : Bool), s.mgmt.complete = none →
    let seen : State := sampleKey key s
    let go : LineRx → State := fun x => { seen with mgmt := { s.mgmt with rx := x } }
    (s.mgmt.rx = .hunt →
      (b = 0xC3 → exec (.character b ⟨false, key⟩) s = .next (go .len)) ∧
      (b ≠ 0xC3 → exec (.character b ⟨false, key⟩) s = .next seen) ∧
      exec (.character b ⟨true, key⟩) s = .next seen) ∧
    (s.mgmt.rx = .len →
      (1 ≤ b.toNat → b.toNat ≤ 200 → exec (.character b ⟨false, key⟩) s = .next (go (.body b.toNat []))) ∧
      (b.toNat = 0 ∨ 200 < b.toNat →
        exec (.character b ⟨false, key⟩) s =
          .next { seen with
            mgmt := { s.mgmt with rx := .hunt, badLength := min 65535 (s.mgmt.badLength + 1) } })) ∧
    (∀ n got, s.mgmt.rx = .body n got →
      (got.length + 1 < n → exec (.character b ⟨false, key⟩) s = .next (go (.body n (got ++ [b])))) ∧
      (n ≤ got.length + 1 → exec (.character b ⟨false, key⟩) s = .next (go (.check (got ++ [b]) none)))) ∧
    ∀ body,
      (s.mgmt.rx = .check body none → exec (.character b ⟨false, key⟩) s = .next (go (.check body (some b)))) ∧
      ∀ hi, s.mgmt.rx = .check body (some hi) → 1 ≤ body.length → body.length ≤ 200 →
        (hi ++ b ≠ frameCheck body →
          exec (.character b ⟨false, key⟩) s = exec (.checkFail body (hi ++ b)) (go .hunt)) ∧
        ∀ kind fields, body = kind :: fields → hi ++ b = frameCheck body →
          (s.mgmt.line ≠ .idle ∨ s.mgmt.reject ≠ none →
            exec (.character b ⟨false, key⟩) s = exec (.rejectBusy kind fields) (go .hunt)) ∧
          (s.mgmt.line = .idle → s.mgmt.reject = none →
            (¬(1 ≤ kind.toNat ∧ kind.toNat ≤ 15) →
              exec (.character b ⟨false, key⟩) s = exec (.unknown kind fields) (go .hunt)) ∧
            ∀ c, requestOf c = some (kind, fields) → keyRead c (go .hunt) = go .hunt →
              exec (.character b ⟨false, key⟩) s = exec c (go .hunt))

/-- A frame cut short, a frame with a wrong check, and a checked frame that cannot be taken: the count of each,
and its REJECT by the state of the reply line and the slot (R153, R154, R155; log entry 3 for frames that arrive
whole). -/
def Obligations.BrokenFramesAreRejected : Prop :=
  ∀ s : State, s.mgmt.complete = none →
    let owed : Reject → ManagementLine → ManagementLine := fun r m =>
      if m.line = .idle then { m with line := .sending (rejectBody r) }
      else if m.reject = none then { m with reject := some r }
      else m
    let cut : ManagementLine :=
      owed .trunc { s.mgmt with rx := .hunt, truncated := min 65535 (s.mgmt.truncated + 1) }
    (s.mgmt.rx ≠ .hunt →
      exec .gapTimeout s = .next { s with mgmt := cut } ∧
      ∀ b key, exec (.character b ⟨true, key⟩) s = .next { sampleKey key s with mgmt := cut }) ∧
    (∀ body check, 1 ≤ body.length → body.length ≤ 200 → check ≠ frameCheck body → s.mgmt.rx = .hunt →
      exec (.checkFail body check) s =
        .next { s with
          mgmt := owed .check { s.mgmt with checkFails := min 65535 (s.mgmt.checkFails + 1) } }) ∧
    ∀ kind fields, fields.length + 1 ≤ 200 → (s.mgmt.line ≠ .idle ∨ s.mgmt.reject ≠ none) → s.mgmt.rx = .hunt →
      exec (.rejectBusy kind fields) s =
        .next { s with mgmt := owed (.busy kind) { s.mgmt with busy := min 65535 (s.mgmt.busy + 1) } }

/-- The end of a reply (R155). -/
def Obligations.ReplyEndSendsTheReject : Prop :=
  ∀ (s : State) (baud : Bool) (body : List Byte),
    s.mgmt.line = .sending body → s.mgmt.resetOwed = false →
    (∀ r, s.mgmt.reject = some r →
      exec (.replyEnd baud) s =
        .next { s with mgmt := { s.mgmt with line := .sending (rejectBody r), reject := none } }) ∧
    (s.mgmt.reject = none →
      exec (.replyEnd baud) s = .next { s with mgmt := { s.mgmt with line := .idle } })

/-! ### Requests -/

/-- A kind that names no request, a request the mode does not serve, and a body of the wrong length are
answered with the head alone and have no further effect (R145, R156, R181; log entries 3 and 4 for the moment and
the level of KEY). -/
def Obligations.RefusedRequestsHaveNoEffect : Prop :=
  (∀ kind fields s t, ¬(1 ≤ kind.toNat ∧ kind.toNat ≤ 15) → Carried (kind :: fields) s t →
    exec (.unknown kind fields) s = .next (t.replying [kind + 0x80, 0x05])) ∧
  ∀ c kind fields s t, requestOf c = some (kind, fields) → Carried (kind :: fields) (keyRead c s) t →
    (¬ servedIn t.control.mode kind → exec c s = .next (t.replying [kind + 0x80, 0x02])) ∧
    (servedIn t.control.mode kind → ¬ lengthFits kind fields.length →
      exec c s = .next (t.replying [kind + 0x80, 0x04]))

/-- STAT in every mode: what its reply holds, and its clear flag (R157, R181).  The level of KEY comes with the command, and
a lower one than before takes the effect of a fall first (log entry 4). -/
def Obligations.StatReportsAndClears : Prop :=
  (∀ (key : Bool) (fields : List Byte) (s t : State), Carried (0x01 :: fields) (sampleKey key s) t →
    (fields = [] ∨ fields = [0] →
      exec (.stat key fields) s = .next (t.replying (0x81 :: 0x00 :: statFields t))) ∧
    (fields = [1] →
      exec (.stat key fields) s =
        .next (State.replying
          { t with
            meter := { t.meter with lateOrDuplicate := 0, missing := 0 }
            probe := { t.probe with skipped := 0, foreign := 0, malformed := 0, lateCatch := 0 }
            evidence := { t.evidence with evictions := 0 }
            glink :=
              { t.glink with
                framingErrors := 0, unknownRecords := 0, badPorts := 0, strayAcks := 0, ackTimeouts := 0 }
            mgmt := { t.mgmt with badLength := 0, truncated := 0, checkFails := 0, busy := 0 } }
          (0x81 :: 0x00 :: statFields t))) ∧
    ∀ c, fields = [c] → 1 < c.toNat → exec (.stat key fields) s = .next (t.replying [0x81, 0x04])) ∧
  ∀ t : State,
    (statFields t).length = 59 ∧
    (statFields t).take 9 =
      [t.control.mode.code, t.control.resetCause.code, t.glink.state.code, if t.key then 1 else 0,
        writeByte t.settings.write, t.settings.policyValidity.code, t.settings.roleValidity.code,
        BitVec.ofNat 8 t.reports.queue.length, if t.reports.overflow then 1 else 0] ∧
    ((statFields t).drop 9).take 2 = bytesOf 2 t.reports.lost ∧
    (t.reports.watch = none → ((statFields t).drop 11).take 6 = [0, 0, 0, 0, 0, 0]) ∧
    (∀ w, t.reports.watch = some w →
      ((statFields t).drop 11).take 6 =
        [1, portByte w.port] ++ bytesOf 2 (w.remaining.getD 0) ++ bytesOf 2 (w.slot.getD 0)) ∧
    ((statFields t).drop 17).take 8 = trapBytes t.trap ∧
    (statFields t).drop 25 =
      [t.meter.lateOrDuplicate, t.meter.missing, t.probe.skipped, t.probe.foreign, t.probe.malformed,
        t.probe.lateCatch, t.evidence.evictions, t.glink.framingErrors, t.glink.unknownRecords,
        t.glink.badPorts, t.glink.strayAcks, t.glink.ackTimeouts, t.arbiter.consecutive, t.mgmt.badLength,
        t.mgmt.truncated, t.mgmt.checkFails, t.mgmt.busy].flatMap (bytesOf 2)

/-- PORTQ: the clamp of its count, and the records it returns (R158, R181). -/
def Obligations.PortqReturnsThePorts : Prop :=
  (∀ (start count : Byte) (s t : State), Carried [0x02, start, count] s t → servedIn t.control.mode 0x02 →
    (27 < start.toNat → exec (.portq [start, count]) s = .next (t.replying [0x82, 0x04])) ∧
    (start.toNat ≤ 27 →
      let n := min (max 1 (min 10 count.toNat)) (28 - start.toNat)
      exec (.portq [start, count]) s =
        .next (t.replying (0x82 :: 0x00 :: BitVec.ofNat 8 n ::
          ((allPorts.drop start.toNat).take n).flatMap fun p => portqRecord (t.port p))))) ∧
  ∀ r : PortRec, (portqRecord r).length = 19 ∧
    portqRecord r =
      [r.role.code, if r.present then 1 else 0, if r.linkUp then 1 else 0, r.guard.code, r.override.code,
        confirmedByte r.confirmed, BitVec.ofNat 8 r.strike] ++
      bytesOf 2 r.hold ++ bytesOf 2 r.throttleHold ++ bytesOf 2 r.lastF ++ bytesOf 3 r.avgE ++
      bytesOf 2 r.creditB ++ [if r.trip then 1 else 0]

/-- FETCH and ACKGAP, with the judgement of resumption (R159, R170, R171), and the level of ATTN (R169), low after every
reset.  The code of ACKGAP's field, 1 for resumed and 0 for not resumed, is the model's choice (log entry 26). -/
def Obligations.FetchResumptionAndAttn : Prop :=
  (∀ (b : Byte) (s t : State), Carried [0x03, b] s t → servedIn t.control.mode 0x03 →
    let n := max 1 (min 8 b.toNat)
    let got := t.reports.queue.take n
    let rest := t.reports.queue.drop n
    let reply : Nat → List Byte := fun level =>
      0x83 :: 0x00 :: BitVec.ofNat 8 got.length :: got.flatMap Report.bytes ++ [BitVec.ofNat 8 level]
    (¬(t.reports.overflow = true ∧ t.reports.acknowledged = true ∧ rest.length ≤ 32) →
      exec (.fetch [b]) s =
        .next (State.replying { t with reports := { t.reports with queue := rest } } (reply rest.length))) ∧
    (t.reports.overflow = true → t.reports.acknowledged = true → rest.length ≤ 32 →
      exec (.fetch [b]) s =
        .next (State.replying
          { t with
            reports :=
              { t.reports with
                queue := rest ++ [⟨t.clock.stamp, .gap t.reports.lost⟩]
                overflow := false
                acknowledged := false
                lost := 0 } }
          (reply (rest.length + 1))))) ∧
  (∀ s t : State, Carried [0x04] s t → servedIn t.control.mode 0x04 →
    (t.reports.overflow = false → exec (.ackgap []) s = .next (t.replying [0x84, 0x00, 0])) ∧
    (t.reports.overflow = true → 32 < t.reports.queue.length →
      exec (.ackgap []) s =
        .next (State.replying { t with reports := { t.reports with acknowledged := true } }
          [0x84, 0x00, 0])) ∧
    (t.reports.overflow = true → t.reports.queue.length ≤ 32 →
      exec (.ackgap []) s =
        .next (State.replying
          { t with
            reports :=
              { t.reports with
                queue := t.reports.queue ++ [⟨t.clock.stamp, .gap t.reports.lost⟩]
                overflow := false
                acknowledged := false
                lost := 0 } }
          [0x84, 0x00, 1]))) ∧
  (∀ s : State, s.attn = true ↔
    s.control.policy.qatt ≤ s.reports.queue.length ∨ s.reports.overflow = true) ∧
  ∀ (baud : Bool) (s : State),
    (∃ t, exec (.powerReset baud) s = .next t ∧ t.attn = false) ∧
    (∃ t, exec (.pinReset baud) s = .next t ∧ t.attn = false) ∧
    ∀ reply, s.mgmt.line = .sending reply → s.mgmt.resetOwed = true →
      ∃ t, exec (.replyEnd baud) s = .next t ∧ t.attn = false

/-- LESSON (R34). -/
def Obligations.LessonRefillsTheCredits : Prop :=
  ∀ s t : State, Carried [0x0A] s t → servedIn t.control.mode 0x0A →
    ∃ u, exec (.lesson []) s = .next (u.replying [0x8A, 0x00]) ∧
      OnlyChanges [.ports] t u ∧
      ∀ p, u.port p =
        if (t.port p).role = .unused then t.port p
        else { t.port p with creditB := (t.control.policy.rowOf (t.port p).role).bmax }

/-- The trap (R54, R55, R73): what a failure does to it; the scan of an interval event, which tells the failures of that
stamp; a failing entry at a catch lookup; and a failing LET entry met at the end of a hold, with the victim sweep that
follows.  Then TRAPCLR and RESET (R140, R159, R160).  The order in which one scan tells several failures is the model's
choice (log entry 23), and so is the end of a hold as a command of its own (log entry 5). -/
def Obligations.TrapTrapclrAndReset : Prop :=
  (∀ (s : State) (tb : TableName) (slot : Nat),
    (s.trap = none →
      trapFailure tb slot s =
        { s with
          trap := some ⟨tb, slot, s.clock.stamp, false⟩
          reports := (report (.trap tb slot s.clock.stamp) s).reports }) ∧
    ∀ r, s.trap = some r → trapFailure tb slot s = { s with trap := some { r with overflow := true } }) ∧
  (∀ s : State, s.control.mode ≠ .start → NothingDue s →
    let fails : Fin 32 → Prop := fun i => ∃ e, s.probe.opt.get i = some e ∧ e.parityOk = false
    let ticked : State := { s with clock := { s.clock with stamp := s.clock.stamp + 1 } }
    ∃ t, exec .intervalEvent s = .next t ∧
      (∀ i, fails i → t.probe.opt.get i = none) ∧
      (∀ i, ¬ fails i → t.probe.opt.get i = s.probe.opt.get i) ∧
      t.evidence = s.evidence ∧
      ((∀ i, ¬ fails i) → t.trap = s.trap ∧ t.reports = s.reports) ∧
      (∀ i r, fails i → s.trap = some r →
        t.trap = some { r with overflow := true } ∧ t.reports = s.reports) ∧
      ∀ i, fails i → (∀ j, j < i → ¬ fails j) → s.trap = none →
        t.reports = (report (.trap .opt i.val (s.clock.stamp + 1)) ticked).reports ∧
        ((∀ j, i < j → ¬ fails j) → t.trap = some ⟨.opt, i.val, s.clock.stamp + 1, false⟩) ∧
        ((∃ j, i < j ∧ fails j) → t.trap = some ⟨.opt, i.val, s.clock.stamp + 1, true⟩)) ∧
  (∀ (s : State) (yp : Port) (i : Fin 32) (e : OptEntry),
    s.control.loading = false → s.glink.state = .up → (s.port yp).present = true → (s.port yp).linkUp = true →
    s.probe.opt.get i = some e → e.parityOk = false →
    (∀ j f, j ≠ i → s.probe.opt.get j = some f → f.parityOk = true) →
    (∀ j f, j ≠ i → s.probe.opt.get j = some f → ¬(f.round = e.round ∧ f.egress = e.egress)) →
    exec (.catchRecord (portField yp) (portField e.egress) e.round s.identity) s =
      .next (State.received (trapFailure .opt i.val
        { s with
          probe :=
            { s.probe with
              opt := s.probe.opt.set i.val none i.isLt
              lateCatch := min 65535 (s.probe.lateCatch + 1) } }))) ∧
  (∀ (s : State) (p : Port) (i : Fin 16) (e : LetEntry),
    s.evidence.sweepOwed = false → s.evidence.slots.get i = some e → e.parityOk = false →
    (∀ j f, j ≠ i → s.evidence.slots.get j = some f → f.parityOk = true) →
    (s.port p).holdDue = true → (s.port p).guard = .blocked → (s.port p).hold = 0 →
    (∀ q, q < p → (s.port q).throttleDue = false ∧ (s.port q).holdDue = false ∧ (s.port q).decayDue = false) →
    let named : Port → Prop := fun q => ∃ j f, j ≠ i ∧ s.evidence.slots.get j = some f ∧ f.victim = some q
    ∃ t, exec (.holdExpiry p) s = .next t ∧
      OnlyChanges [.ports, .evidence, .trap, .reports] s t ∧
      t.evidence = { s.evidence with slots := s.evidence.slots.set i.val none i.isLt } ∧
      t.trap = (trapFailure .letTable i.val s).trap ∧
      (trapFailure .letTable i.val s).reports.queue <+: t.reports.queue ∧
      ∀ q,
        (named q → t.port q = { s.port q with holdDue := if q = p then false else (s.port q).holdDue }) ∧
        (¬ named q →
          ((s.port q).guard = .suspect → (t.port q).guard = .forward) ∧
          ((s.port q).guard = .blocked → (s.port q).hold = 0 → (t.port q).guard = .listen) ∧
          (¬((s.port q).guard = .suspect ∨ (s.port q).guard = .blocked ∧ (s.port q).hold = 0) →
            t.port q = s.port q))) ∧
  (∀ s t : State, Carried [0x05] s t → servedIn t.control.mode 0x05 →
    exec (.trapclr []) s = .next (State.replying { t with trap := none } (0x85 :: 0x00 :: trapBytes t.trap))) ∧
  ∀ s t : State, Carried [0x0F] s t → servedIn t.control.mode 0x0F →
    exec (.reset []) s =
      .next (State.replying { t with mgmt := { t.mgmt with resetOwed := true } } [0x8F, 0x00])

/-- The table of MODE (R146, R147, R149, R151, R160). -/
def Obligations.ModeRequestTable : Prop :=
  ∀ (b : Byte) (s t : State), Carried [0x06, b] s t → servedIn t.control.mode 0x06 →
    (b = 0 ∨ 3 < b.toNat → exec (.mode [b]) s = .next (t.replying [0x86, 0x04])) ∧
    (1 ≤ b.toNat → b.toNat ≤ 3 → b = t.control.mode.code →
      exec (.mode [b]) s = .next (t.replying [0x86, 0x00, b])) ∧
    (b = 1 → t.control.mode ≠ .autonomous →
      ∃ u, exec (.mode [b]) s = .next (u.replying [0x86, 0x00, 1]) ∧
        OnlyChanges [.ports, .evidence, .trap, .reports, .probe, .control] t u ∧
        u.control =
          { t.control with
            mode := .autonomous
            hostLost := 0
            hostLostDue := false
            policy := t.settings.readPolicy } ∧
        (∀ p, (u.port p).override = .noOverride ∧ (u.port p).role = t.settings.readRoles.get p) ∧
        (report (.mode t.control.mode .autonomous .request) t).reports.queue <+: u.reports.queue) ∧
    (b = 2 → t.control.mode ≠ .managed →
      exec (.mode [b]) s =
        .next (State.replying
          { t with
            control := { t.control with mode := .managed, hostLost := 0, hostLostDue := false }
            reports := (report (.mode t.control.mode .managed .request) t).reports }
          [0x86, 0x00, 2])) ∧
    (b = 3 → t.control.mode = .autonomous → exec (.mode [b]) s = .next (t.replying [0x86, 0x02])) ∧
    (b = 3 → t.control.mode = .managed →
      let quiet : Prop :=
        (∀ p, ((t.port p).guard = .down ∨ (t.port p).guard = .forward ∨ (t.port p).guard = .disabled) ∧
          (t.port p).override = .noOverride) ∧ t.reports.watch = none
      (¬ quiet → exec (.mode [b]) s = .next (t.replying [0x86, 0x02])) ∧
      (quiet →
        exec (.mode [b]) s =
          .next (State.replying
            { t with
              control := { t.control with mode := .rest, hostLost := 0, hostLostDue := false }
              reports := (report (.mode .managed .rest .request) t).reports }
            [0x86, 0x00, 3])))

/-- SETP: clamps, effects that act at once, and the reply (R17, R99, R161); the order of the extra pairs is the
model's choice (log entry 14). -/
def Obligations.SetpWritesClampedValues : Prop :=
  ∀ (fields : List Byte) (s t : State), Carried (0x07 :: fields) s t → t.control.mode = .managed →
    lengthFits 0x07 fields.length →
    ∀ l, parsePairs fields = some l →
      (namePairs l = none → exec (.setp fields) s = .next (t.replying [0x87, 0x04])) ∧
      ∀ pairs, namePairs l = some pairs →
        let q1 := pairs.foldl (fun q x => q.put x.2.1 (x.2.1.clamp x.2.2)) t.control.policy
        let q := q1.crossClamp
        let unnamed : Byte × Param → Bool := fun x =>
          decide (q.get x.2 ≠ q1.get x.2) && pairs.all fun y => decide (y.2.1 ≠ x.2)
        ∃ u, exec (.setp fields) s =
            .next (u.replying (0x87 :: 0x00 ::
              (pairs.flatMap (fun x => x.1 :: bytesOf 3 (q.get x.2.1)) ++
                ([(0x14, Param.row .access .tclear), (0x24, .row .teacher .tclear),
                  (0x34, .row .uplink .tclear), (0x41, .tEXP)].filter unnamed).flatMap
                  fun x => x.1 :: bytesOf 3 (q.get x.2)))) ∧
          OnlyChanges [.ports, .control] t u ∧
          u.control = { t.control with policy := q } ∧
          ∀ p, u.port p =
            { t.port p with
              creditB :=
                if (q.rowOf (t.port p).role).bmax < (t.control.policy.rowOf (t.port p).role).bmax then
                  min (t.port p).creditB (q.rowOf (t.port p).role).bmax
                else (t.port p).creditB
              hold :=
                if q.tHOLD0 < t.control.policy.tHOLD0 then min (t.port p).hold (32 * q.tHOLD0)
                else (t.port p).hold }

/-- ROLES: its refusals, and the role change it makes (R10, R11, R12, R13, R162, R178); the level of KEY comes with
the command (log entry 4).  Where no entry fails its parity check, the STATE records of the role rule come first, in
ascending order; then each changed port's entries are removed in turn, and the victims that no remaining entry names
are given evidence-gone in ascending order (R10, R67, R71, R88, R97). -/
def Obligations.RolesChangesTheRoles : Prop :=
  ∀ (key : Bool) (start : Byte) (codes : List Byte) (s t : State),
    Carried (0x08 :: start :: codes) (sampleKey key s) t → t.control.mode = .managed →
    1 ≤ codes.length → codes.length ≤ 28 →
    ((parseRoles codes = none ∨ 28 < start.toNat + codes.length) →
      exec (.roles key (start :: codes)) s = .next (t.replying [0x88, 0x04])) ∧
    ∀ roles, parseRoles codes = some roles → start.toNat + codes.length ≤ 28 →
      (key = false → exec (.roles key (start :: codes)) s = .next (t.replying [0x88, 0x03])) ∧
      (key = true →
        let new : Port → Role := fun p =>
          if start.toNat ≤ p.val then roles.getD (p.val - start.toNat) (t.port p).role else (t.port p).role
        let changed : Port → Prop := fun p => new p ≠ (t.port p).role
        ∃ u, exec (.roles key (start :: codes)) s =
            .next (u.replying [0x88, 0x00,
              BitVec.ofNat 8 (allPorts.filter fun p => decide (new p ≠ (t.port p).role)).length]) ∧
          OnlyChanges [.ports, .evidence, .trap, .reports, .probe] t u ∧
          (∀ p, (u.port p).role = new p ∧ (u.port p).strike = (t.port p).strike ∧
            (u.port p).lastF = (t.port p).lastF) ∧
          (∀ p, changed p →
            (u.port p).override = .noOverride ∧
            (u.port p).creditB =
              (if (t.port p).role = .unused then (t.control.policy.rowOf (new p)).bmax
              else min (t.port p).creditB (t.control.policy.rowOf (new p)).bmax) ∧
            (∀ i e, u.probe.opt.get i = some e → e.egress ≠ p) ∧
            (∀ i e, u.evidence.slots.get i = some e → e.egress ≠ p ∧ e.ingress ≠ p)) ∧
          (∀ p, ¬ changed p →
            (u.port p).override = (t.port p).override ∧ (u.port p).creditB = (t.port p).creditB ∧
            (u.port p).avgE = (t.port p).avgE ∧ (u.port p).trip = (t.port p).trip) ∧
          (∀ p, changed p → (t.port p).present = true →
            (new p = .unused → (u.port p).guard = .disabled) ∧
            (new p ≠ .unused → (t.port p).role = .unused →
              (u.port p).guard = if (t.port p).linkUp then .listen else .down) ∧
            ((t.port p).role = .access → (t.port p).guard = .blocked → new p ≠ .unused →
              (u.port p).guard = .listen ∧ (u.port p).hold = 0)) ∧
          (OptSound t → LetSound t → (∀ p, (t.port p).Fits) →
            let ruled : Port → GuardState := fun p =>
              if new p = (t.port p).role ∨ (t.port p).present = false then (t.port p).guard
              else if new p = .unused then .disabled
              else if (t.port p).role = .unused then (if (t.port p).linkUp then .listen else .down)
              else if (t.port p).role = .access ∧ (t.port p).guard = .blocked then .listen
              else (t.port p).guard
            let stepOne : State :=
              allPorts.foldl
                (fun w p =>
                  if ruled p = (t.port p).guard then w
                  else report (.state p (t.port p).guard (ruled p) .role) w) t
            ∀ gone : Port → List Port, (∀ c, (gone c).Pairwise (· < ·)) →
              (∀ c v, v ∈ gone c ↔
                changed c ∧
                (∃ j l, t.evidence.slots.get j = some l ∧ (l.egress = c ∨ l.ingress = c) ∧ l.victim = some v ∧
                  ∀ d, d < c → changed d → l.egress ≠ d ∧ l.ingress ≠ d) ∧
                ∀ j l, t.evidence.slots.get j = some l → l.victim = some v →
                  ∃ d, d ≤ c ∧ changed d ∧ (l.egress = d ∨ l.ingress = d)) →
              (∀ v,
                ((∃ c, v ∈ gone c) → ruled v = .suspect → (u.port v).guard = .forward ∧ (u.port v).decay = 0) ∧
                ((∃ c, v ∈ gone c) → ruled v = .blocked → (t.port v).hold = 0 →
                  (u.port v).guard = .listen ∧ (u.port v).listen = 0 ∧ (u.port v).hold = 0) ∧
                ((∀ c, v ∉ gone c) ∨ ¬(ruled v = .suspect ∨ ruled v = .blocked ∧ (t.port v).hold = 0) →
                  (u.port v).guard = ruled v)) ∧
              u.reports =
                (allPorts.foldl
                  (fun w c => (gone c).foldl (fun z v => goneReport v (ruled v) (t.port v).hold z) w)
                  stepOne).reports))

/-- OVRD: its refusals and its effect (R79, R102, R163). -/
def Obligations.OvrdSetsTheOverride : Prop :=
  ∀ (b c : Byte) (s t : State), Carried [0x09, b, c] s t → t.control.mode = .managed →
    (27 < b.toNat ∨ 2 < c.toNat → exec (.ovrd [b, c]) s = .next (t.replying [0x89, 0x04])) ∧
    ∀ (p : Port) (o : Override), b = portByte p → c = o.code →
      ((t.port p).present = false ∨ (t.port p).role = .unused →
        exec (.ovrd [b, c]) s = .next (t.replying [0x89, 0x02])) ∧
      ((t.port p).present = true → (t.port p).role ≠ .unused →
        let w := wantedOf o (t.port p).guard
        exec (.ovrd [b, c]) s =
          .next (State.replying
            (t.setPort p
              { t.port p with
                override := o
                wanted := w
                pendingFlag :=
                  if w = (t.port p).wanted then (t.port p).pendingFlag
                  else decide ((t.port p).confirmed ≠ some w) && decide ((t.port p).inFlight ≠ some w) })
            [0x89, 0x00, b, c, (t.port p).guard.code, w.code]))

/-- STORE, the completion of its write, and a fall of KEY (R164, R177, R178); the level of KEY, the bytes under the
check and whether the cells took the write are the model's choices (log entries 4, 7, 15). -/
def Obligations.StoreWritesAnArea : Prop :=
  (∀ (key : Bool) (b : Byte) (s t : State), Carried [0x0B, b] (sampleKey key s) t → t.control.mode = .managed →
    (1 < b.toNat → exec (.store key [b]) s = .next (t.replying [0x8B, 0x04])) ∧
    (b = 1 → key = false → exec (.store key [b]) s = .next (t.replying [0x8B, 0x03])) ∧
    ((b = 0 ∨ b = 1 ∧ key = true) → t.settings.write ≠ none →
      exec (.store key [b]) s = .next (t.replying [0x8B, 0x01])) ∧
    (b = 0 → t.settings.write = none →
      exec (.store key [b]) s =
        .next (State.replying
          { t with
            settings :=
              { t.settings with
                policyArea := { t.settings.policyArea with whole := false }
                write := some (.policy t.control.policy t.settings.policyArea) } }
          [0x8B, 0x00, 0])) ∧
    (b = 1 → key = true → t.settings.write = none →
      exec (.store key [b]) s =
        .next (State.replying
          { t with
            settings :=
              { t.settings with
                roleArea := { t.settings.roleArea with whole := false }
                write := some (.roles (Vector.ofFn fun p => (t.port p).role) t.settings.roleArea) } }
          [0x8B, 0x00, 1]))) ∧
  (∀ (s : State) (took : Bool),
    let result : StoredResult := if took then .done else .invalidAfterReset
    let validity : Validity := if took then .valid else .invalid
    (∀ q image, s.settings.write = some (.policy q image) →
      ∃ t, exec (.writeCompletion took) s = .next t ∧ OnlyChanges [.settings, .reports] s t ∧
        t.settings =
          { s.settings with
            policyArea := ⟨q, policyCheck q, took⟩, write := none, policyValidity := validity } ∧
        t.reports = (report (.stored .policy result) s).reports) ∧
    ∀ v image, s.settings.write = some (.roles v image) →
      ∃ t, exec (.writeCompletion took) s = .next t ∧ OnlyChanges [.settings, .reports] s t ∧
        t.settings =
          { s.settings with
            roleArea := ⟨v, roleCheck v, took⟩, write := none, roleValidity := validity } ∧
        t.reports = (report (.stored .roles result) s).reports) ∧
  ∀ s : State,
    (∀ v image, s.settings.write = some (.roles v image) →
      ∃ t, exec .keyFall s = .next t ∧ OnlyChanges [.settings, .reports, .key] s t ∧ t.key = false ∧
        t.settings = { s.settings with write := none, roleValidity := .invalid } ∧
        t.reports = (report (.stored .roles .abandoned) s).reports) ∧
    ((∀ v image, s.settings.write ≠ some (.roles v image)) →
      exec .keyFall s = .next { s with key := false })

/-- WATCH, EXTEND and UNWATCH (R165, R172, R174, R175), and what a taken DIGEST does to the watch: the decimation, a sample
appended or skipped, the count-down, the extension slot and WATCHEND COMPLETE (R31, R173). -/
def Obligations.WatchRequestsAndSamples : Prop :=
  (∀ (b n1 n0 d : Byte) (s t : State), Carried [0x0C, b, n1, n0, d] s t → servedIn t.control.mode 0x0C →
    (27 < b.toNat → exec (.watch [b, n1, n0, d]) s = .next (t.replying [0x8C, 0x04])) ∧
    (b.toNat ≤ 27 → t.reports.watch ≠ none →
      exec (.watch [b, n1, n0, d]) s = .next (t.replying [0x8C, 0x01])) ∧
    ∀ p : Port, b = portByte p → t.reports.watch = none →
      let n := n1.toNat * 256 + n0.toNat
      exec (.watch [b, n1, n0, d]) s =
        .next (State.replying
          { t with
            reports :=
              { t.reports with
                watch := some
                  { port := p
                    remaining := if n = 0 then none else some n
                    decimation := max 1 d.toNat
                    counter := 0
                    slot := none
                    skipped := 0 } } }
          [0x8C, 0x00, b, n1, n0, if d = 0 then 1 else d])) ∧
  (∀ (m1 m0 : Byte) (s t : State), Carried [0x0D, m1, m0] s t → servedIn t.control.mode 0x0D →
    let m := max 1 (m1.toNat * 256 + m0.toNat)
    (t.reports.watch = none → exec (.extend [m1, m0]) s = .next (t.replying [0x8D, 0x06])) ∧
    ∀ w, t.reports.watch = some w →
      (w.slot ≠ none → exec (.extend [m1, m0]) s = .next (t.replying [0x8D, 0x01])) ∧
      (w.slot = none →
        exec (.extend [m1, m0]) s =
          .next (State.replying
            { t with reports := { t.reports with watch := some { w with slot := some m } } }
            ([0x8D, 0x00] ++ bytesOf 2 m)))) ∧
  (∀ s t : State, Carried [0x0E] s t → servedIn t.control.mode 0x0E →
    (t.reports.watch = none → exec (.unwatch []) s = .next (t.replying [0x8E, 0x06])) ∧
    ∀ w, t.reports.watch = some w →
      exec (.unwatch []) s =
        .next (State.replying
          { t with
            reports := { (report (.watchEnd w.port .stopped w.skipped) t).reports with watch := none } }
          [0x8E, 0x00])) ∧
  ∀ (s : State) (p : Port) (stamp : Byte) (f : BitVec 16) (w : Watch),
    DigestTaken p stamp s → s.reports.watch = some w →
    ((s.port p).trip = true → 256 * (s.rowAt p).tclear ≤ nextAverage p f s) →
    ((s.port p).trip = false → nextAverage p f s < 256 * (s.rowAt p).ttrip) →
    ∃ t, exec (.digest (portField p) stamp f) s = .next t ∧
      OnlyChanges [.ports, .reports, .glink] s t ∧
      (w.port ≠ p → t.reports = s.reports) ∧
      (w.port = p → w.counter + 1 < w.decimation →
        t.reports = { s.reports with watch := some { w with counter := w.counter + 1 } }) ∧
      (w.port = p → w.decimation ≤ w.counter + 1 →
        let fits : Prop := s.reports.queue.length < 32 ∧ s.reports.overflow = false
        let r := t.port p
        ∀ (u : ReportUnit) (skipped : Nat),
          (fits → u = (report (.sample p r.lastF r.avgE r.creditB r.trip) s).reports ∧ skipped = w.skipped) →
          (¬ fits → u = s.reports ∧ skipped = min 65535 (w.skipped + 1)) →
          let w' : Watch := { w with counter := 0, skipped := skipped }
          (w.remaining = none → t.reports = { u with watch := some w' }) ∧
          ∀ n, w.remaining = some n →
            (1 < n → t.reports = { u with watch := some { w' with remaining := some (n - 1) } }) ∧
            (n ≤ 1 → ∀ m, w.slot = some m →
              t.reports = { u with watch := some { w' with remaining := some m, slot := none } }) ∧
            (n ≤ 1 → w.slot = none →
              t.reports =
                { (report (.watchEnd p .complete skipped) { s with reports := u }).reports with watch := none }))

/-! ### Reports -/

/-- A record handed to the Report Unit (R168). -/
def Obligations.ReportIsAppendedOrDropped : Prop :=
  ∀ (s : State) (b : ReportBody),
    (s.reports.overflow = false → s.reports.queue.length < 64 →
      report b s =
        { s with reports := { s.reports with queue := s.reports.queue ++ [⟨s.clock.stamp, b⟩] } }) ∧
    (s.reports.overflow = false → 64 ≤ s.reports.queue.length →
      report b s = { s with reports := { s.reports with overflow := true, lost := 1, acknowledged := false } }) ∧
    (s.reports.overflow = true →
      report b s = { s with reports := { s.reports with lost := min 65535 (s.reports.lost + 1) } })

/-! ### Records and words -/

/-- Records and characters on the lines.  The three outbound records carry their codes and fields in the bits of the
table, every other bit 0 (R110, R182).  Every inbound record command is what its word is read as, no bit of the encoding
dropped (R107, R182); the receiver takes a sync and 64 bits, the most significant first, as one record (R105, R106); the
transmitter sends a record the same way with GLFO and GLDO low when nothing is left (R105); and a character is a start
bit, 8 data bits least significant first and a stop bit, whose low level is the framing fault (R152). -/
def Obligations.RecordsAndCharactersOnTheLines : Prop :=
  (∀ b : Byte,
    let w := (OutRecord.strobe b).word
    w.extractLsb' 56 8 = 0x21#8 ∧ w.extractLsb' 48 8 = b ∧ w.extractLsb' 0 48 = 0#48) ∧
  (∀ (p : Port) (x : SwitchState),
    let w := (OutRecord.setport p x).word
    w.extractLsb' 56 8 = 0x22#8 ∧ (w.extractLsb' 51 5).toNat = p.val ∧
    w.extractLsb' 49 2 = (match x with | .opened => 0b01#2 | .floodcut => 0b10#2 | .hold => 0b11#2) ∧
    w.extractLsb' 0 49 = 0#49) ∧
  (∀ (p : Port) (r : Round) (d : Identity),
    let w := (OutRecord.inject p r d).word
    w.extractLsb' 56 8 = 0x23#8 ∧ (w.extractLsb' 51 5).toNat = p.val ∧ (w.extractLsb' 46 5).toNat = p.val ∧
    w.extractLsb' 34 12 = r ∧ w.extractLsb' 2 32 = d ∧ w.extractLsb' 0 2 = 0#2) ∧
  (∀ (c : Instr) (w : Record), encodeRecord c = some w → decodeRecord w = some c) ∧
  (∀ (rx : LinkRx) (w : Record), rx = .hunt ∨ rx = .receiving [] →
    rxRun rx (recordClocks w) = ⟨.hunt, 0, [w]⟩) ∧
  (∀ w : Record, (recordClocks w).length = 65 ∧ (recordClocks w)[0]? = some (true, false) ∧
    ∀ k, k < 64 → (recordClocks w)[k + 1]? = some (false, w.getLsbD (63 - k))) ∧
  (∀ (s : State) (k : Nat),
    (s.glink.sending = none → s.glink.waiting = none → s.linkLevels k = (false, false)) ∧
    ∀ a, s.glink.sending = some a →
      (k < 65 → s.linkLevels k = (recordClocks a.word).getD k (false, false)) ∧
      (s.glink.waiting = none → 65 ≤ k → s.linkLevels k = (false, false)) ∧
      ∀ b, s.glink.waiting = some b → 65 ≤ k →
        s.linkLevels k = (recordClocks b.word).getD (k - 65) (false, false)) ∧
  (∀ b : Byte, charOfBits (charBits b) = some (b, false) ∧
    charOfBits ((charBits b).dropLast ++ [false]) = some (b, true) ∧
    (charBits b)[0]? = some false ∧ (charBits b)[9]? = some true ∧
    ∀ i, i < 8 → (charBits b)[i + 1]? = some (b.getLsbD i)) ∧
  ∀ (s : State) (k : Nat),
    ((∀ body, s.mgmt.line ≠ .sending body) → s.mtxdLevel k = true) ∧
    ∀ body, s.mgmt.line = .sending body →
      ∀ j i b, (frameBytes body)[j]? = some b → i < 10 → k = 10 * j + i →
        (charBits b)[i]? = some (s.mtxdLevel k)

/-! ### Invariants -/

/-- The invariants below hold right after reset. -/
def Obligations.InvariantsHoldAfterReset : Prop :=
  QueueFits State.reset ∧ OrderFits State.reset ∧ GuardFits State.reset ∧ PolicyFits State.reset ∧
  TablesFit State.reset ∧ MeterFits State.reset ∧ CountsFit State.reset ∧ ChannelFits State.reset ∧
  OverridesFit State.reset ∧ LineFits State.reset

/-- The report queue never holds more than 64 records (R166), and the Management Line keeps its form (R140, R153, R155);
that no frame or request is left between two steps is the model's choice (log entry 3). -/
def Obligations.QueueAndLineKeepTheirForm : Prop :=
  (∀ s s' : State, QueueFits s → step s = .next s' → QueueFits s') ∧
  ∀ s s' : State, LineFits s → step s = .next s' → LineFits s'

/-- The link-up order list holds the ports with link, each once (R8). -/
def Obligations.OrderListFollowsTheLinks : Prop :=
  ∀ s s' : State, OrderFits s → step s = .next s' → OrderFits s'

/-- No TEACHER or UPLINK port is ever in BLOCKED, and every guard state fits its port's link, role and
presence (R62, R78). -/
def Obligations.ProtectedPortsAreNeverBlocked : Prop :=
  ∀ s s' : State, GuardFits s → step s = .next s' → GuardFits s'

/-- The runtime policy stays within its ranges (R16, R161, R176). -/
def Obligations.PolicyStaysInRange : Prop :=
  ∀ s s' : State, PolicyFits s → step s = .next s' → PolicyFits s'

/-- The probe list, the OPT and the LET keep their properties (R42, R43, R57). -/
def Obligations.TablesKeepTheirProperties : Prop :=
  ∀ s s' : State, PolicyFits s → TablesFit s → step s = .next s' → TablesFit s'

/-- E and B stay within their bounds (R15). -/
def Obligations.MeterStaysInBounds : Prop :=
  ∀ s s' : State, MeterFits s → step s = .next s' → MeterFits s'

/-- Every count of the guard record belongs to its state (R77). -/
def Obligations.CountsBelongToTheirStates : Prop :=
  ∀ s s' : State, CountsFit s → step s = .next s' → CountsFit s'

/-- The pending flag is set exactly when a SETPORT is owed, the wanted state follows override and guard state,
and at most one command is outstanding (R79, R112, R123). -/
def Obligations.PendingFlagMeansASetportIsOwed : Prop :=
  ∀ s s' : State, ChannelFits s → step s = .next s' → ChannelFits s'

/-- No port carries an override outside MANAGED (R103). -/
def Obligations.OverridesOnlyInManaged : Prop :=
  ∀ s s' : State, OverridesFit s → step s = .next s' → OverridesFit s'
end

