-- ==== Sys2Proof/Laws/Bits.lean ====
section
/-! SUPPORT. The bits of a record and of a character, and the receiver of the Guard Link over a run of clocks. -/

namespace Sys2Proof.Machine

theorem recordBits_length (w : Record) : (recordBits w).length = 64 := by simp [recordBits]

theorem recordBits_get (w : Record) {k : Nat} (h : k < 64) : (recordBits w)[k]? = some (w.getLsbD (63 - k)) := by
  simp [recordBits, h]

/-- The bits of a record spell the record. -/
theorem recordOfBits_recordBits (w : Record) : recordOfBits (recordBits w) = w := by
  apply BitVec.eq_of_getLsbD_eq
  intro i hi
  have h : 63 - i < 64 := by omega
  simp only [recordOfBits, BitVec.getLsbD_setWidth, hi, decide_true, Bool.true_and, BitVec.getLsbD_ofBoolListBE,
    recordBits_length, List.getD_eq_getElem?_getD]
  rw [show 64 - 1 - i = 63 - i from rfl, recordBits_get w h, show 63 - (63 - i) = i by omega]
  rfl

/-- A run of clocks, its first clock taken apart. -/
theorem rxRun_cons (rx : LinkRx) (c : Bool × Bool) (l : List (Bool × Bool)) :
    rxRun rx (c :: l) =
      ⟨(rxRun (rxClock rx c.1 c.2).rx l).rx,
        (rxClock rx c.1 c.2).truncated + (rxRun (rxClock rx c.1 c.2).rx l).truncated,
        (rxClock rx c.1 c.2).records ++ (rxRun (rxClock rx c.1 c.2).rx l).records⟩ := by
  have move : ∀ (l : List (Bool × Bool)) (rx : LinkRx) (n : Nat) (rs : List Record),
      l.foldl (fun a c =>
        let b := rxClock a.rx c.1 c.2
        (⟨b.rx, a.truncated + b.truncated, a.records ++ b.records⟩ : RxResult)) ⟨rx, n, rs⟩ =
      ⟨(rxRun rx l).rx, n + (rxRun rx l).truncated, rs ++ (rxRun rx l).records⟩ := by
    intro l
    induction l with
    | nil => intro rx n rs; simp [rxRun]
    | cons d l ih =>
      intro rx n rs
      simp only [rxRun, List.foldl_cons]
      rw [ih, ih]
      simp [Nat.add_assoc]
  simp only [rxRun, List.foldl_cons]
  rw [move]
  simp [rxRun]

/-- A run of clocks, cut in two. -/
theorem rxRun_append (a b : List (Bool × Bool)) (rx : LinkRx) :
    rxRun rx (a ++ b) =
      ⟨(rxRun (rxRun rx a).rx b).rx, (rxRun rx a).truncated + (rxRun (rxRun rx a).rx b).truncated,
        (rxRun rx a).records ++ (rxRun (rxRun rx a).rx b).records⟩ := by
  induction a generalizing rx with
  | nil => simp [rxRun]
  | cons c l ih => rw [List.cons_append, rxRun_cons, ih, rxRun_cons rx c l]; simp [Nat.add_assoc]

/-- Data bits that leave the record short of its 64th bit are kept. -/
theorem rxRun_data (bits got : List Bool) (h : got.length + bits.length < 64) :
    rxRun (.receiving got) (bits.map fun b => (false, b)) = ⟨.receiving (got ++ bits), 0, []⟩ := by
  induction bits generalizing got with
  | nil => simp [rxRun]
  | cons b l ih =>
    simp only [List.length_cons] at h
    have c : rxClock (.receiving got) false b = ⟨.receiving (got ++ [b]), 0, []⟩ := by
      have : ¬ 64 ≤ got.length + 1 := by omega
      simp [rxClock, this]
    rw [List.map_cons, rxRun_cons, c, ih (got ++ [b]) (by simp; omega)]
    simp

end Sys2Proof.Machine
end

