-- ==== Sys2Proof/Laws/State.lean ====
section
/-! SUPPORT. Each part of the state after each update of a port record, and reading a port record after such
an update. -/

namespace Sys2Proof.Machine

@[simp] theorem setPort_order (s : State) (p : Port) (r : PortRec) : (s.setPort p r).order = s.order := rfl
@[simp] theorem setPort_clock (s : State) (p : Port) (r : PortRec) : (s.setPort p r).clock = s.clock := rfl
@[simp] theorem setPort_meter (s : State) (p : Port) (r : PortRec) : (s.setPort p r).meter = s.meter := rfl
@[simp] theorem setPort_probe (s : State) (p : Port) (r : PortRec) : (s.setPort p r).probe = s.probe := rfl
@[simp] theorem setPort_evidence (s : State) (p : Port) (r : PortRec) : (s.setPort p r).evidence = s.evidence := rfl
@[simp] theorem setPort_trap (s : State) (p : Port) (r : PortRec) : (s.setPort p r).trap = s.trap := rfl
@[simp] theorem setPort_arbiter (s : State) (p : Port) (r : PortRec) : (s.setPort p r).arbiter = s.arbiter := rfl
@[simp] theorem setPort_glink (s : State) (p : Port) (r : PortRec) : (s.setPort p r).glink = s.glink := rfl
@[simp] theorem setPort_mgmt (s : State) (p : Port) (r : PortRec) : (s.setPort p r).mgmt = s.mgmt := rfl
@[simp] theorem setPort_control (s : State) (p : Port) (r : PortRec) : (s.setPort p r).control = s.control := rfl
@[simp] theorem setPort_reports (s : State) (p : Port) (r : PortRec) : (s.setPort p r).reports = s.reports := rfl
@[simp] theorem setPort_settings (s : State) (p : Port) (r : PortRec) : (s.setPort p r).settings = s.settings := rfl
@[simp] theorem setPort_identity (s : State) (p : Port) (r : PortRec) : (s.setPort p r).identity = s.identity := rfl
@[simp] theorem setPort_key (s : State) (p : Port) (r : PortRec) : (s.setPort p r).key = s.key := rfl
@[simp] theorem setPort_pending (s : State) (p : Port) (r : PortRec) : (s.setPort p r).pending = s.pending := rfl

@[simp] theorem modPort_order (s : State) (p : Port) (f : PortRec → PortRec) : (s.modPort p f).order = s.order := rfl
@[simp] theorem modPort_clock (s : State) (p : Port) (f : PortRec → PortRec) : (s.modPort p f).clock = s.clock := rfl
@[simp] theorem modPort_meter (s : State) (p : Port) (f : PortRec → PortRec) : (s.modPort p f).meter = s.meter := rfl
@[simp] theorem modPort_probe (s : State) (p : Port) (f : PortRec → PortRec) : (s.modPort p f).probe = s.probe := rfl
@[simp] theorem modPort_evidence (s : State) (p : Port) (f : PortRec → PortRec) : (s.modPort p f).evidence = s.evidence := rfl
@[simp] theorem modPort_trap (s : State) (p : Port) (f : PortRec → PortRec) : (s.modPort p f).trap = s.trap := rfl
@[simp] theorem modPort_arbiter (s : State) (p : Port) (f : PortRec → PortRec) : (s.modPort p f).arbiter = s.arbiter := rfl
@[simp] theorem modPort_glink (s : State) (p : Port) (f : PortRec → PortRec) : (s.modPort p f).glink = s.glink := rfl
@[simp] theorem modPort_mgmt (s : State) (p : Port) (f : PortRec → PortRec) : (s.modPort p f).mgmt = s.mgmt := rfl
@[simp] theorem modPort_control (s : State) (p : Port) (f : PortRec → PortRec) : (s.modPort p f).control = s.control := rfl
@[simp] theorem modPort_reports (s : State) (p : Port) (f : PortRec → PortRec) : (s.modPort p f).reports = s.reports := rfl
@[simp] theorem modPort_settings (s : State) (p : Port) (f : PortRec → PortRec) : (s.modPort p f).settings = s.settings := rfl
@[simp] theorem modPort_identity (s : State) (p : Port) (f : PortRec → PortRec) : (s.modPort p f).identity = s.identity := rfl
@[simp] theorem modPort_key (s : State) (p : Port) (f : PortRec → PortRec) : (s.modPort p f).key = s.key := rfl
@[simp] theorem modPort_pending (s : State) (p : Port) (f : PortRec → PortRec) : (s.modPort p f).pending = s.pending := rfl

@[simp] theorem mapPorts_order (s : State) (f : Port → PortRec → PortRec) : (s.mapPorts f).order = s.order := by
  simp only [State.mapPorts]
@[simp] theorem mapPorts_clock (s : State) (f : Port → PortRec → PortRec) : (s.mapPorts f).clock = s.clock := by
  simp only [State.mapPorts]
@[simp] theorem mapPorts_meter (s : State) (f : Port → PortRec → PortRec) : (s.mapPorts f).meter = s.meter := by
  simp only [State.mapPorts]
@[simp] theorem mapPorts_probe (s : State) (f : Port → PortRec → PortRec) : (s.mapPorts f).probe = s.probe := by
  simp only [State.mapPorts]
@[simp] theorem mapPorts_evidence (s : State) (f : Port → PortRec → PortRec) : (s.mapPorts f).evidence = s.evidence := by
  simp only [State.mapPorts]
@[simp] theorem mapPorts_trap (s : State) (f : Port → PortRec → PortRec) : (s.mapPorts f).trap = s.trap := by
  simp only [State.mapPorts]
@[simp] theorem mapPorts_arbiter (s : State) (f : Port → PortRec → PortRec) : (s.mapPorts f).arbiter = s.arbiter := by
  simp only [State.mapPorts]
@[simp] theorem mapPorts_glink (s : State) (f : Port → PortRec → PortRec) : (s.mapPorts f).glink = s.glink := by
  simp only [State.mapPorts]
@[simp] theorem mapPorts_mgmt (s : State) (f : Port → PortRec → PortRec) : (s.mapPorts f).mgmt = s.mgmt := by
  simp only [State.mapPorts]
@[simp] theorem mapPorts_control (s : State) (f : Port → PortRec → PortRec) : (s.mapPorts f).control = s.control := by
  simp only [State.mapPorts]
@[simp] theorem mapPorts_reports (s : State) (f : Port → PortRec → PortRec) : (s.mapPorts f).reports = s.reports := by
  simp only [State.mapPorts]
@[simp] theorem mapPorts_settings (s : State) (f : Port → PortRec → PortRec) : (s.mapPorts f).settings = s.settings := by
  simp only [State.mapPorts]
@[simp] theorem mapPorts_identity (s : State) (f : Port → PortRec → PortRec) : (s.mapPorts f).identity = s.identity := by
  simp only [State.mapPorts]
@[simp] theorem mapPorts_key (s : State) (f : Port → PortRec → PortRec) : (s.mapPorts f).key = s.key := by
  simp only [State.mapPorts]
@[simp] theorem mapPorts_pending (s : State) (f : Port → PortRec → PortRec) : (s.mapPorts f).pending = s.pending := by
  simp only [State.mapPorts]

theorem port_setPort (s : State) (p q : Port) (r : PortRec) :
    (s.setPort p r).port q = if q = p then r else s.port q := by
  have h : (q = p) = (p.val = q.val) := by rw [Fin.ext_iff]; exact propext eq_comm
  simp only [h]
  exact Vector.getElem_set p.isLt q.isLt

@[simp] theorem port_setPort_self (s : State) (p : Port) (r : PortRec) : (s.setPort p r).port p = r := by
  rw [port_setPort, if_pos rfl]

theorem port_setPort_ne (s : State) {p q : Port} (r : PortRec) (h : q ≠ p) :
    (s.setPort p r).port q = s.port q := by
  rw [port_setPort, if_neg h]

@[simp] theorem port_modPort_self (s : State) (p : Port) (f : PortRec → PortRec) :
    (s.modPort p f).port p = f (s.port p) := port_setPort_self s p _

theorem port_modPort_ne (s : State) {p q : Port} (f : PortRec → PortRec) (h : q ≠ p) :
    (s.modPort p f).port q = s.port q := port_setPort_ne s _ h

theorem port_modPort (s : State) (p q : Port) (f : PortRec → PortRec) :
    (s.modPort p f).port q = if q = p then f (s.port p) else s.port q := port_setPort s p q _

@[simp] theorem port_mapPorts (s : State) (f : Port → PortRec → PortRec) (p : Port) :
    (s.mapPorts f).port p = f p (s.port p) := Vector.getElem_ofFn p.isLt

/-- A record is read from the vector of records alone. -/
theorem port_congr {s t : State} (h : t.ports = s.ports) (p : Port) : t.port p = s.port p := by
  simp only [State.port, h]

end Sys2Proof.Machine
end

