-- ==== Sys2Proof/Laws/Frames.lean ====
section
/-! SUPPORT. The frame of every operation: the parts of the state it may change.  `OnlyChanges.comp` chains
them. -/

namespace Sys2Proof.Machine

/-! ### Chaining frames -/

theorem OnlyChanges.refl (l : List Part) (s : State) : OnlyChanges l s s := by
  intro a _
  cases a <;> rfl

/-- A change after a change. -/
theorem OnlyChanges.comp {l l' : List Part} {s t u : State} (h : OnlyChanges l s t) (h' : OnlyChanges l' t u)
    (sub : ∀ a ∈ l', a ∈ l) : OnlyChanges l s u := by
  intro a ha
  have h1 := h a ha
  have h2 := h' a fun m => ha (sub a m)
  cases a <;> simp only [Part.same] at h1 h2 ⊢ <;> rw [h2, h1]

theorem OnlyChanges.mono {l l' : List Part} {s t : State} (h : OnlyChanges l' s t) (sub : ∀ a ∈ l', a ∈ l) :
    OnlyChanges l s t := (OnlyChanges.refl l s).comp h sub

theorem OnlyChanges.foldl {α : Type} {l : List Part} {f : State → α → State}
    (h : ∀ t a, OnlyChanges l t (f t a)) (xs : List α) (s : State) : OnlyChanges l s (xs.foldl f s) := by
  induction xs generalizing s with
  | nil => exact OnlyChanges.refl l s
  | cons x xs ih => exact (h s x).comp (ih _) fun _ m => m

/-! ### One part replaced -/

theorem frame_set_order (s : State) (x : List Port) : OnlyChanges [.order] s { s with order := x } := by
  intro a ha
  cases a <;> first | rfl | (exfalso; revert ha; decide)

theorem frame_set_clock (s : State) (x : IntervalClock) : OnlyChanges [.clock] s { s with clock := x } := by
  intro a ha
  cases a <;> first | rfl | (exfalso; revert ha; decide)

theorem frame_set_meter (s : State) (x : FloodMeter) : OnlyChanges [.meter] s { s with meter := x } := by
  intro a ha
  cases a <;> first | rfl | (exfalso; revert ha; decide)

theorem frame_set_probe (s : State) (x : ProbeUnit) : OnlyChanges [.probe] s { s with probe := x } := by
  intro a ha
  cases a <;> first | rfl | (exfalso; revert ha; decide)

theorem frame_set_evidence (s : State) (x : EvidenceUnit) : OnlyChanges [.evidence] s { s with evidence := x } := by
  intro a ha
  cases a <;> first | rfl | (exfalso; revert ha; decide)

theorem frame_set_trap (s : State) (x : Option TrapRecord) : OnlyChanges [.trap] s { s with trap := x } := by
  intro a ha
  cases a <;> first | rfl | (exfalso; revert ha; decide)

theorem frame_set_arbiter (s : State) (x : Arbiter) : OnlyChanges [.arbiter] s { s with arbiter := x } := by
  intro a ha
  cases a <;> first | rfl | (exfalso; revert ha; decide)

theorem frame_set_glink (s : State) (x : GuardLink) : OnlyChanges [.glink] s { s with glink := x } := by
  intro a ha
  cases a <;> first | rfl | (exfalso; revert ha; decide)

theorem frame_set_mgmt (s : State) (x : ManagementLine) : OnlyChanges [.mgmt] s { s with mgmt := x } := by
  intro a ha
  cases a <;> first | rfl | (exfalso; revert ha; decide)

theorem frame_set_control (s : State) (x : ModeUnit) : OnlyChanges [.control] s { s with control := x } := by
  intro a ha
  cases a <;> first | rfl | (exfalso; revert ha; decide)

theorem frame_set_reports (s : State) (x : ReportUnit) : OnlyChanges [.reports] s { s with reports := x } := by
  intro a ha
  cases a <;> first | rfl | (exfalso; revert ha; decide)

theorem frame_set_settings (s : State) (x : SettingsStore) : OnlyChanges [.settings] s { s with settings := x } := by
  intro a ha
  cases a <;> first | rfl | (exfalso; revert ha; decide)

theorem frame_set_key (s : State) (x : Bool) : OnlyChanges [.key] s { s with key := x } := by
  intro a ha
  cases a <;> first | rfl | (exfalso; revert ha; decide)

theorem frame_set_pending (s : State) (x : List Instr) : OnlyChanges [.pending] s { s with pending := x } := by
  intro a ha
  cases a <;> first | rfl | (exfalso; revert ha; decide)

theorem frame_set_channel (s : State) (a : Arbiter) (g : GuardLink) :
    OnlyChanges [.arbiter, .glink] s { s with arbiter := a, glink := g } := by
  intro a ha
  cases a <;> first | rfl | (exfalso; revert ha; decide)

theorem frame_set_fault (s : State) (g : GuardLink) (a : Arbiter) (x : ProbeUnit) :
    OnlyChanges [.glink, .arbiter, .probe] s { s with glink := g, arbiter := a, probe := x } := by
  intro a ha
  cases a <;> first | rfl | (exfalso; revert ha; decide)

theorem frame_set_line (s : State) (m : ManagementLine) (c : ModeUnit) :
    OnlyChanges [.mgmt, .control] s { s with mgmt := m, control := c } := by
  intro a ha
  cases a <;> first | rfl | (exfalso; revert ha; decide)

theorem frame_set_round (s : State) (k : IntervalClock) (x : ProbeUnit) :
    OnlyChanges [.clock, .probe] s { s with clock := k, probe := x } := by
  intro a ha
  cases a <;> first | rfl | (exfalso; revert ha; decide)

theorem frame_set_store (s : State) (k : Bool) (x : SettingsStore) :
    OnlyChanges [.key, .settings] s { s with key := k, settings := x } := by
  intro a ha
  cases a <;> first | rfl | (exfalso; revert ha; decide)

/-! ### Shared operations -/

theorem frame_setPort (p : Port) (r : PortRec) (s : State) :
    OnlyChanges [.ports] s (s.setPort p r) := by
  intro a ha
  cases a <;> first | (simp only [Part.same, State.setPort]; done) | (exfalso; revert ha; decide)

theorem frame_modPort (p : Port) (f : PortRec → PortRec) (s : State) :
    OnlyChanges [.ports] s (s.modPort p f) := by
  unfold State.modPort
  try dsimp only
  repeat' first
    | with_reducible refine OnlyChanges.comp ?_ (frame_setPort _ _ _) (by decide)
    | split
    | with_reducible exact OnlyChanges.refl _ _

theorem frame_mapPorts (f : Port → PortRec → PortRec) (s : State) :
    OnlyChanges [.ports] s (s.mapPorts f) := by
  intro a ha
  cases a <;> first | (simp only [Part.same, State.mapPorts]; done) | (exfalso; revert ha; decide)

theorem frame_report (b : ReportBody) (s : State) :
    OnlyChanges [.reports] s (report b s) := by
  intro a ha
  simp only [report]
  repeat' split
  all_goals cases a <;> first | rfl | (exfalso; revert ha; decide)

theorem frame_setMode (m : Mode) (c : ModeCause) (s : State) :
    OnlyChanges [.control, .reports] s (setMode m c s) := by
  unfold setMode
  try dsimp only
  repeat' first
    | with_reducible refine OnlyChanges.comp ?_ (frame_report _ _) (by decide)
    | split
    | with_reducible exact OnlyChanges.refl _ _
    | refine OnlyChanges.comp ?_ (frame_set_control _ _) (by decide)

theorem frame_wake (k : WakeKind) (p : Port) (s : State) :
    OnlyChanges [.control, .reports] s (wake k p s) := by
  unfold wake
  try dsimp only
  repeat' first
    | with_reducible refine OnlyChanges.comp ?_ (frame_setMode _ _ _) (by decide)
    | split
    | with_reducible exact OnlyChanges.refl _ _

theorem frame_trapFailure (n : TableName) (i : Nat) (s : State) :
    OnlyChanges [.trap, .reports] s (trapFailure n i s) := by
  unfold trapFailure
  try dsimp only
  repeat' first
    | with_reducible refine OnlyChanges.comp ?_ (frame_report _ _) (by decide)
    | split
    | with_reducible exact OnlyChanges.refl _ _
    | refine OnlyChanges.comp ?_ (frame_set_trap _ _) (by decide)

theorem frame_dropOpt (i : Fin 32) (s : State) :
    OnlyChanges [.probe, .trap, .reports] s (dropOpt i s) := by
  unfold dropOpt
  try dsimp only
  repeat' first
    | with_reducible refine OnlyChanges.comp ?_ (frame_trapFailure _ _ _) (by decide)
    | split
    | with_reducible exact OnlyChanges.refl _ _
    | refine OnlyChanges.comp ?_ (frame_set_probe _ _) (by decide)

theorem frame_dropLet (i : Fin 16) (s : State) :
    OnlyChanges [.evidence, .trap, .reports] s (dropLet i s) := by
  unfold dropLet
  try dsimp only
  repeat' first
    | with_reducible refine OnlyChanges.comp ?_ (frame_trapFailure _ _ _) (by decide)
    | split
    | with_reducible exact OnlyChanges.refl _ _
    | refine OnlyChanges.comp ?_ (frame_set_evidence _ _) (by decide)

theorem frame_readOpt (s : State) :
    OnlyChanges [.probe, .trap, .reports] s (readOpt s) := by
  unfold readOpt
  try dsimp only
  repeat' first
    | with_reducible refine OnlyChanges.comp ?_ (OnlyChanges.foldl (fun _ _ => frame_dropOpt _ _) _ _) (by decide)
    | split
    | with_reducible exact OnlyChanges.refl _ _

theorem frame_readLet (s : State) :
    OnlyChanges [.evidence, .trap, .reports] s (readLet s) := by
  unfold readLet
  try dsimp only
  repeat' first
    | with_reducible refine OnlyChanges.comp ?_ (OnlyChanges.foldl (fun _ _ => frame_dropLet _ _) _ _) (by decide)
    | split
    | with_reducible exact OnlyChanges.refl _ _

theorem frame_handTx (r : OutRecord) (s : State) :
    OnlyChanges [.glink] s (handTx r s) := by
  intro a ha
  simp only [handTx]
  repeat' split
  all_goals cases a <;> first | rfl | (exfalso; revert ha; decide)

/-! ### The Port Guard -/

theorem frame_moveGuard (p : Port) (g : GuardState) (n k : Nat) (c : StateCause) (s : State) :
    OnlyChanges [.ports, .reports] s (moveGuard p g n k c s) := by
  unfold moveGuard
  try dsimp only
  repeat' first
    | with_reducible refine OnlyChanges.comp ?_ (frame_report _ _) (by decide)
    | with_reducible refine OnlyChanges.comp ?_ (frame_setPort _ _ _) (by decide)
    | split
    | with_reducible exact OnlyChanges.refl _ _

theorem frame_goPlain (p : Port) (g : GuardState) (c : StateCause) (s : State) :
    OnlyChanges [.ports, .reports] s (goPlain p g c s) := by
  unfold goPlain
  try dsimp only
  repeat' first
    | with_reducible refine OnlyChanges.comp ?_ (frame_moveGuard _ _ _ _ _ _) (by decide)
    | split
    | with_reducible exact OnlyChanges.refl _ _

theorem frame_goThrottle (p : Port) (c : StateCause) (s : State) :
    OnlyChanges [.ports, .reports] s (goThrottle p c s) := by
  unfold goThrottle
  try dsimp only
  repeat' first
    | with_reducible refine OnlyChanges.comp ?_ (frame_moveGuard _ _ _ _ _ _) (by decide)
    | split
    | with_reducible exact OnlyChanges.refl _ _

theorem frame_goBlocked (p : Port) (s : State) :
    OnlyChanges [.ports, .reports] s (goBlocked p s) := by
  unfold goBlocked
  try dsimp only
  repeat' first
    | with_reducible refine OnlyChanges.comp ?_ (frame_moveGuard _ _ _ _ _ _) (by decide)
    | with_reducible refine OnlyChanges.comp ?_ (frame_modPort _ _ _) (by decide)
    | split
    | with_reducible exact OnlyChanges.refl _ _

theorem frame_evidenceEvent (p : Port) (s : State) :
    OnlyChanges [.ports, .reports] s (evidenceEvent p s) := by
  unfold evidenceEvent
  try dsimp only
  repeat' first
    | with_reducible refine OnlyChanges.comp ?_ (frame_goPlain _ _ _ _) (by decide)
    | with_reducible refine OnlyChanges.comp ?_ (frame_modPort _ _ _) (by decide)
    | split
    | with_reducible exact OnlyChanges.refl _ _

theorem frame_evidenceGone (p : Port) (s : State) :
    OnlyChanges [.ports, .reports] s (evidenceGone p s) := by
  unfold evidenceGone
  try dsimp only
  repeat' first
    | with_reducible refine OnlyChanges.comp ?_ (frame_goPlain _ _ _ _) (by decide)
    | split
    | with_reducible exact OnlyChanges.refl _ _

theorem frame_confirmEvent (p : Port) (s : State) :
    OnlyChanges [.ports, .reports] s (confirmEvent p s) := by
  unfold confirmEvent
  try dsimp only
  repeat' first
    | with_reducible refine OnlyChanges.comp ?_ (frame_goBlocked _ _) (by decide)
    | split
    | with_reducible exact OnlyChanges.refl _ _

theorem frame_tripPassed (p : Port) (s : State) :
    OnlyChanges [.ports, .reports] s (tripPassed p s) := by
  unfold tripPassed
  try dsimp only
  repeat' first
    | with_reducible refine OnlyChanges.comp ?_ (frame_goThrottle _ _ _) (by decide)
    | with_reducible refine OnlyChanges.comp ?_ (frame_modPort _ _ _) (by decide)
    | split
    | with_reducible exact OnlyChanges.refl _ _

theorem frame_leaveListen (p : Port) (s : State) :
    OnlyChanges [.ports, .reports] s (leaveListen p s) := by
  unfold leaveListen
  try dsimp only
  repeat' first
    | with_reducible refine OnlyChanges.comp ?_ (frame_goThrottle _ _ _) (by decide)
    | with_reducible refine OnlyChanges.comp ?_ (frame_goPlain _ _ _ _) (by decide)
    | split
    | with_reducible exact OnlyChanges.refl _ _

theorem frame_listenJudge (p : Port) (c : Bool) (s : State) :
    OnlyChanges [.ports, .reports] s (listenJudge p c s) := by
  unfold listenJudge
  try dsimp only
  repeat' first
    | with_reducible refine OnlyChanges.comp ?_ (frame_leaveListen _ _) (by decide)
    | with_reducible refine OnlyChanges.comp ?_ (frame_modPort _ _ _) (by decide)
    | split
    | with_reducible exact OnlyChanges.refl _ _

theorem frame_evidenceGoneCheck (v : Port → Bool) (s : State) :
    OnlyChanges [.ports, .reports] s (evidenceGoneCheck v s) := by
  unfold evidenceGoneCheck
  try dsimp only
  repeat' first
    | with_reducible refine OnlyChanges.comp ?_ (OnlyChanges.foldl (fun _ _ => frame_evidenceGone _ _) _ _) (by decide)
    | split
    | with_reducible exact OnlyChanges.refl _ _

theorem frame_settleSweep (s : State) :
    OnlyChanges guardParts s (settleSweep s) := by
  unfold settleSweep
  try dsimp only
  repeat' first
    | with_reducible refine OnlyChanges.comp ?_ (OnlyChanges.foldl (fun _ _ => frame_evidenceGone _ _) _ _) (by decide)
    | with_reducible refine OnlyChanges.comp ?_ (frame_readLet _) (by decide)
    | split
    | with_reducible exact OnlyChanges.refl _ _
    | refine OnlyChanges.comp ?_ (frame_set_evidence _ _) (by decide)

theorem frame_eraseLet (c : LetEntry → Bool) (s : State) :
    OnlyChanges [.evidence] s (eraseLet c s) := by
  intro a ha
  cases a <;> first | (simp only [Part.same, eraseLet]; done) | (exfalso; revert ha; decide)

theorem frame_withdraw (c : LetEntry → Bool) (s : State) :
    OnlyChanges guardParts s (withdraw c s) := by
  unfold withdraw
  dsimp only
  refine OnlyChanges.comp ?_ (frame_settleSweep _) (by decide)
  refine OnlyChanges.comp ?_ (frame_evidenceGoneCheck _ _) (by decide)
  refine OnlyChanges.comp ?_ (frame_eraseLet _ _) (by decide)
  refine OnlyChanges.comp ?_ (frame_readLet _) (by decide)
  exact OnlyChanges.refl _ _

theorem frame_leaveThrottle (p : Port) (s : State) :
    OnlyChanges guardParts s (leaveThrottle p s) := by
  unfold leaveThrottle
  try dsimp only
  repeat' first
    | with_reducible refine OnlyChanges.comp ?_ (frame_settleSweep _) (by decide)
    | with_reducible refine OnlyChanges.comp ?_ (frame_goPlain _ _ _ _) (by decide)
    | with_reducible refine OnlyChanges.comp ?_ (frame_readLet _) (by decide)
    | split
    | with_reducible exact OnlyChanges.refl _ _

theorem frame_clearEvent (p : Port) (s : State) :
    OnlyChanges guardParts s (clearEvent p s) := by
  unfold clearEvent
  try dsimp only
  repeat' first
    | with_reducible refine OnlyChanges.comp ?_ (frame_leaveThrottle _ _) (by decide)
    | split
    | with_reducible exact OnlyChanges.refl _ _

theorem frame_throttleEnds (p : Port) (s : State) :
    OnlyChanges guardParts s (throttleEnds p s) := by
  unfold throttleEnds
  try dsimp only
  repeat' first
    | with_reducible refine OnlyChanges.comp ?_ (frame_leaveThrottle _ _) (by decide)
    | with_reducible refine OnlyChanges.comp ?_ (frame_modPort _ _ _) (by decide)
    | split
    | with_reducible exact OnlyChanges.refl _ _

theorem frame_holdEnds (p : Port) (s : State) :
    OnlyChanges guardParts s (holdEnds p s) := by
  unfold holdEnds
  try dsimp only
  repeat' first
    | with_reducible refine OnlyChanges.comp ?_ (frame_settleSweep _) (by decide)
    | with_reducible refine OnlyChanges.comp ?_ (frame_goPlain _ _ _ _) (by decide)
    | with_reducible refine OnlyChanges.comp ?_ (frame_readLet _) (by decide)
    | with_reducible refine OnlyChanges.comp ?_ (frame_modPort _ _ _) (by decide)
    | split
    | with_reducible exact OnlyChanges.refl _ _

theorem frame_decayEnds (p : Port) (s : State) :
    OnlyChanges [.ports] s (decayEnds p s) := by
  unfold decayEnds
  try dsimp only
  repeat' first
    | with_reducible refine OnlyChanges.comp ?_ (frame_modPort _ _ _) (by decide)
    | split
    | with_reducible exact OnlyChanges.refl _ _

theorem frame_listenBook (p : Port) (q : Bool) (s : State) :
    OnlyChanges guardParts s (listenBook p q s) := by
  unfold listenBook
  try dsimp only
  repeat' first
    | with_reducible refine OnlyChanges.comp ?_ (frame_settleSweep _) (by decide)
    | with_reducible refine OnlyChanges.comp ?_ (frame_listenJudge _ _ _) (by decide)
    | with_reducible refine OnlyChanges.comp ?_ (frame_readLet _) (by decide)
    | split
    | with_reducible exact OnlyChanges.refl _ _

/-! ### The Evidence Unit -/

theorem frame_writeLet (i : Fin 16) (e : LetEntry) (s : State) :
    OnlyChanges [.evidence] s (writeLet i e s) := by
  intro a ha
  cases a <;> first | (simp only [Part.same, writeLet]; done) | (exfalso; revert ha; decide)

theorem frame_confirmEffects (e : LetEntry) (b : Bool) (s : State) :
    OnlyChanges [.ports, .reports] s (confirmEffects e b s) := by
  unfold confirmEffects
  try dsimp only
  repeat' first
    | with_reducible refine OnlyChanges.comp ?_ (frame_report _ _) (by decide)
    | with_reducible refine OnlyChanges.comp ?_ (frame_confirmEvent _ _) (by decide)
    | split
    | with_reducible exact OnlyChanges.refl _ _

theorem frame_confirmSlot (i : Fin 16) (s : State) :
    OnlyChanges [.ports, .reports, .evidence] s (confirmSlot i s) := by
  unfold confirmSlot
  try dsimp only
  repeat' first
    | with_reducible refine OnlyChanges.comp ?_ (frame_confirmEffects _ _ _) (by decide)
    | with_reducible refine OnlyChanges.comp ?_ (frame_writeLet _ _ _) (by decide)
    | split
    | with_reducible exact OnlyChanges.refl _ _

theorem frame_confirmCheck (i : Fin 16) (s : State) :
    OnlyChanges [.ports, .reports, .evidence] s (confirmCheck i s) := by
  unfold confirmCheck
  try dsimp only
  repeat' first
    | with_reducible refine OnlyChanges.comp ?_ (frame_confirmSlot _ _) (by decide)
    | split
    | with_reducible exact OnlyChanges.refl _ _

theorem frame_evictedGone (v : Option Port) (s : State) :
    OnlyChanges [.ports, .reports] s (evictedGone v s) := by
  unfold evictedGone
  try dsimp only
  repeat' first
    | with_reducible refine OnlyChanges.comp ?_ (frame_evidenceGone _ _) (by decide)
    | split
    | with_reducible exact OnlyChanges.refl _ _

theorem frame_newVictimEvidence (v : Option Port) (s : State) :
    OnlyChanges [.ports, .reports] s (newVictimEvidence v s) := by
  unfold newVictimEvidence
  try dsimp only
  repeat' first
    | with_reducible refine OnlyChanges.comp ?_ (frame_evidenceEvent _ _) (by decide)
    | split
    | with_reducible exact OnlyChanges.refl _ _

theorem frame_createIn (i : Fin 16) (x y : Port) (v : Option Port) (s : State) :
    OnlyChanges [.ports, .reports, .evidence] s (createIn i x y v s) := by
  unfold createIn
  try dsimp only
  repeat' first
    | with_reducible refine OnlyChanges.comp ?_ (frame_confirmCheck _ _) (by decide)
    | with_reducible refine OnlyChanges.comp ?_ (frame_newVictimEvidence _ _) (by decide)
    | with_reducible refine OnlyChanges.comp ?_ (frame_evictedGone _ _) (by decide)
    | with_reducible refine OnlyChanges.comp ?_ (frame_writeLet _ _ _) (by decide)
    | split
    | with_reducible exact OnlyChanges.refl _ _

theorem frame_createEntry (x y : Port) (s : State) :
    OnlyChanges [.ports, .reports, .evidence] s (createEntry x y s) := by
  unfold createEntry
  try dsimp only
  repeat' first
    | with_reducible refine OnlyChanges.comp ?_ (frame_createIn _ _ _ _ _) (by decide)
    | split
    | with_reducible exact OnlyChanges.refl _ _
    | refine OnlyChanges.comp ?_ (frame_set_evidence _ _) (by decide)

theorem frame_creditSlot (i : Fin 16) (s : State) :
    OnlyChanges [.ports, .reports, .evidence] s (creditSlot i s) := by
  unfold creditSlot
  try dsimp only
  repeat' first
    | with_reducible refine OnlyChanges.comp ?_ (frame_confirmCheck _ _) (by decide)
    | with_reducible refine OnlyChanges.comp ?_ (frame_writeLet _ _ _) (by decide)
    | split
    | with_reducible exact OnlyChanges.refl _ _

theorem frame_sighting (x y : Port) (s : State) :
    OnlyChanges guardParts s (sighting x y s) := by
  unfold sighting
  try dsimp only
  repeat' first
    | with_reducible refine OnlyChanges.comp ?_ (frame_settleSweep _) (by decide)
    | with_reducible refine OnlyChanges.comp ?_ (frame_creditSlot _ _) (by decide)
    | with_reducible refine OnlyChanges.comp ?_ (frame_createEntry _ _ _) (by decide)
    | with_reducible refine OnlyChanges.comp ?_ (frame_readLet _) (by decide)
    | split
    | with_reducible exact OnlyChanges.refl _ _

theorem frame_interlockSlot (p : Port) (i : Fin 16) (s : State) :
    OnlyChanges [.ports, .reports, .evidence] s (interlockSlot p i s) := by
  unfold interlockSlot
  try dsimp only
  repeat' first
    | with_reducible refine OnlyChanges.comp ?_ (frame_confirmSlot _ _) (by decide)
    | split
    | with_reducible exact OnlyChanges.refl _ _

theorem frame_interlock (p : Port) (s : State) :
    OnlyChanges [.ports, .reports, .evidence] s (interlock p s) := by
  unfold interlock
  try dsimp only
  repeat' first
    | with_reducible refine OnlyChanges.comp ?_ (OnlyChanges.foldl (fun _ _ => frame_interlockSlot _ _ _) _ _) (by decide)
    | split
    | with_reducible exact OnlyChanges.refl _ _

theorem frame_tripEvent (p : Port) (s : State) :
    OnlyChanges [.ports, .evidence, .trap, .reports, .control] s (tripEvent p s) := by
  unfold tripEvent
  dsimp only
  refine OnlyChanges.comp ?_ (frame_settleSweep _) (by decide)
  split
  · refine OnlyChanges.comp ?_ (frame_interlock _ _) (by decide)
    refine OnlyChanges.comp ?_ (frame_readLet _) (by decide)
    refine OnlyChanges.comp ?_ (frame_wake _ _ _) (by decide)
    exact OnlyChanges.refl _ _
  · refine OnlyChanges.comp ?_ (frame_tripPassed _ _) (by decide)
    refine OnlyChanges.comp ?_ (frame_interlock _ _) (by decide)
    refine OnlyChanges.comp ?_ (frame_readLet _) (by decide)
    refine OnlyChanges.comp ?_ (frame_wake _ _ _) (by decide)
    exact OnlyChanges.refl _ _

/-! ### The Flood Meter and the watch -/

theorem frame_watchEmptied (w : Watch) (s : State) :
    OnlyChanges [.reports] s (watchEmptied w s) := by
  unfold watchEmptied
  try dsimp only
  repeat' first
    | with_reducible refine OnlyChanges.comp ?_ (frame_report _ _) (by decide)
    | split
    | with_reducible exact OnlyChanges.refl _ _
    | refine OnlyChanges.comp ?_ (frame_set_reports _ _) (by decide)

theorem frame_watchCount (w : Watch) (s : State) :
    OnlyChanges [.reports] s (watchCount w s) := by
  unfold watchCount
  try dsimp only
  repeat' first
    | with_reducible refine OnlyChanges.comp ?_ (frame_watchEmptied _ _) (by decide)
    | split
    | with_reducible exact OnlyChanges.refl _ _
    | refine OnlyChanges.comp ?_ (frame_set_reports _ _) (by decide)

theorem frame_samplePoint (w : Watch) (r : PortRec) (s : State) :
    OnlyChanges [.reports] s (samplePoint w r s) := by
  unfold samplePoint
  try dsimp only
  repeat' first
    | with_reducible refine OnlyChanges.comp ?_ (frame_watchCount _ _) (by decide)
    | with_reducible refine OnlyChanges.comp ?_ (frame_report _ _) (by decide)
    | split
    | with_reducible exact OnlyChanges.refl _ _

theorem frame_watchDigest (p : Port) (r : PortRec) (s : State) :
    OnlyChanges [.reports] s (watchDigest p r s) := by
  unfold watchDigest
  try dsimp only
  repeat' first
    | with_reducible refine OnlyChanges.comp ?_ (frame_samplePoint _ _ _) (by decide)
    | split
    | with_reducible exact OnlyChanges.refl _ _
    | refine OnlyChanges.comp ?_ (frame_set_reports _ _) (by decide)

theorem frame_takeDigest (p : Port) (n : Nat) (s : State) :
    OnlyChanges [.ports, .evidence, .trap, .reports, .control] s (takeDigest p n s) := by
  unfold takeDigest
  dsimp only
  refine OnlyChanges.comp ?_ (frame_watchDigest _ _ _) (by decide)
  split
  · refine OnlyChanges.comp ?_ (frame_tripEvent _ _) (by decide)
    refine OnlyChanges.comp ?_ (frame_setPort _ _ _) (by decide)
    exact OnlyChanges.refl _ _
  · split
    · refine OnlyChanges.comp ?_ (frame_clearEvent _ _) (by decide)
      refine OnlyChanges.comp ?_ (frame_setPort _ _ _) (by decide)
      exact OnlyChanges.refl _ _
    · refine OnlyChanges.comp ?_ (frame_setPort _ _ _) (by decide)
      exact OnlyChanges.refl _ _

theorem frame_lateDigest (s : State) :
    OnlyChanges [.meter] s (lateDigest s) := by
  intro a ha
  cases a <;> first | (simp only [Part.same, lateDigest]; done) | (exfalso; revert ha; decide)

theorem frame_digestAtMeter (p : Port) (b : Byte) (n : Nat) (s : State) :
    OnlyChanges [.ports, .evidence, .trap, .reports, .control, .meter] s (digestAtMeter p b n s) := by
  unfold digestAtMeter
  try dsimp only
  repeat' first
    | with_reducible refine OnlyChanges.comp ?_ (frame_lateDigest _) (by decide)
    | with_reducible refine OnlyChanges.comp ?_ (frame_takeDigest _ _ _) (by decide)
    | split
    | with_reducible exact OnlyChanges.refl _ _

theorem frame_meterInterval (s : State) :
    OnlyChanges [.ports, .meter] s (meterInterval s) := by
  unfold meterInterval
  dsimp only
  refine OnlyChanges.comp ?_ (frame_set_meter _ _) (by decide)
  refine OnlyChanges.comp ?_ (frame_mapPorts _ _) (by decide)
  exact OnlyChanges.refl _ _

/-! ### The Probe Unit -/

theorem frame_writeOpt (i : Fin 32) (e : OptEntry) (s : State) :
    OnlyChanges [.probe] s (writeOpt i e s) := by
  intro a ha
  cases a <;> first | (simp only [Part.same, writeOpt]; done) | (exfalso; revert ha; decide)

theorem frame_clearOpt (i : Fin 32) (s : State) :
    OnlyChanges [.probe] s (clearOpt i s) := by
  intro a ha
  cases a <;> first | (simp only [Part.same, clearOpt]; done) | (exfalso; revert ha; decide)

theorem frame_eraseOpt (c : OptEntry → Bool) (s : State) :
    OnlyChanges [.probe] s (eraseOpt c s) := by
  intro a ha
  cases a <;> first | (simp only [Part.same, eraseOpt]; done) | (exfalso; revert ha; decide)

theorem frame_skipProbe (s : State) :
    OnlyChanges [.probe] s (skipProbe s) := by
  intro a ha
  cases a <;> first | (simp only [Part.same, skipProbe]; done) | (exfalso; revert ha; decide)

theorem frame_lateCatch (s : State) :
    OnlyChanges [.probe] s (lateCatch s) := by
  intro a ha
  cases a <;> first | (simp only [Part.same, lateCatch]; done) | (exfalso; revert ha; decide)

theorem frame_dropProbe (p : Port) (s : State) :
    OnlyChanges [.probe] s (dropProbe p s) := by
  intro a ha
  cases a <;> first | (simp only [Part.same, dropProbe]; done) | (exfalso; revert ha; decide)

theorem frame_catchFound (i : Fin 32) (y : Port) (s : State) :
    OnlyChanges [.ports, .evidence, .trap, .reports, .control, .probe] s (catchFound i y s) := by
  unfold catchFound
  try dsimp only
  repeat' first
    | with_reducible refine OnlyChanges.comp ?_ (frame_sighting _ _ _) (by decide)
    | with_reducible refine OnlyChanges.comp ?_ (frame_writeOpt _ _ _) (by decide)
    | with_reducible refine OnlyChanges.comp ?_ (frame_wake _ _ _) (by decide)
    | split
    | with_reducible exact OnlyChanges.refl _ _

theorem frame_catchOn (x y : Port) (r : Round) (s : State) :
    OnlyChanges [.ports, .evidence, .trap, .reports, .control, .probe] s (catchOn x y r s) := by
  unfold catchOn
  try dsimp only
  repeat' first
    | with_reducible refine OnlyChanges.comp ?_ (frame_catchFound _ _ _) (by decide)
    | with_reducible refine OnlyChanges.comp ?_ (frame_lateCatch _) (by decide)
    | with_reducible refine OnlyChanges.comp ?_ (frame_readOpt _) (by decide)
    | split
    | with_reducible exact OnlyChanges.refl _ _

theorem frame_catchAtProbe (y x : PortField) (r : Round) (d : Identity) (s : State) :
    OnlyChanges [.ports, .evidence, .trap, .reports, .control, .probe] s (catchAtProbe y x r d s) := by
  unfold catchAtProbe
  try dsimp only
  repeat' first
    | with_reducible refine OnlyChanges.comp ?_ (frame_catchOn _ _ _ _) (by decide)
    | split
    | with_reducible exact OnlyChanges.refl _ _
    | refine OnlyChanges.comp ?_ (frame_set_probe _ _) (by decide)

theorem frame_probeAcked (r : Round) (x : Port) (s : State) :
    OnlyChanges [.probe, .trap, .reports] s (probeAcked r x s) := by
  unfold probeAcked
  try dsimp only
  repeat' first
    | with_reducible refine OnlyChanges.comp ?_ (frame_writeOpt _ _ _) (by decide)
    | with_reducible refine OnlyChanges.comp ?_ (frame_readOpt _) (by decide)
    | split
    | with_reducible exact OnlyChanges.refl _ _

theorem frame_probeEnded (r : Round) (x : Port) (s : State) :
    OnlyChanges [.probe, .trap, .reports] s (probeEnded r x s) := by
  unfold probeEnded
  try dsimp only
  repeat' first
    | with_reducible refine OnlyChanges.comp ?_ (frame_skipProbe _) (by decide)
    | with_reducible refine OnlyChanges.comp ?_ (frame_clearOpt _ _) (by decide)
    | with_reducible refine OnlyChanges.comp ?_ (frame_readOpt _) (by decide)
    | split
    | with_reducible exact OnlyChanges.refl _ _

theorem frame_expireSlot (i : Fin 32) (s : State) :
    OnlyChanges [.ports, .evidence, .trap, .reports, .probe] s (expireSlot i s) := by
  unfold expireSlot
  split
  · exact OnlyChanges.refl _ _
  · next e _ =>
    dsimp only
    refine OnlyChanges.comp ?_ (frame_clearOpt _ _) (by decide)
    split
    · refine OnlyChanges.comp ?_ (frame_listenBook _ _ _) (by decide)
      refine OnlyChanges.comp ?_ (frame_withdraw _ _) (by decide)
      exact OnlyChanges.refl _ _
    · refine OnlyChanges.comp ?_ (frame_withdraw _ _) (by decide)
      exact OnlyChanges.refl _ _

theorem frame_expireDue (s : State) :
    OnlyChanges [.ports, .evidence, .trap, .reports, .probe] s (expireDue s) := by
  unfold expireDue
  try dsimp only
  repeat' first
    | with_reducible refine OnlyChanges.comp ?_ (OnlyChanges.foldl (fun _ _ => frame_expireSlot _ _) _ _) (by decide)
    | with_reducible exact OnlyChanges.refl _ _

theorem frame_dealOld (r : Round) (s : State) :
    OnlyChanges [.ports, .evidence, .trap, .reports, .probe] s (dealOld r s) := by
  unfold dealOld
  dsimp only
  refine OnlyChanges.comp ?_ (OnlyChanges.foldl (fun _ _ => frame_expireSlot _ _) _ _) (by decide)
  refine OnlyChanges.comp ?_ (frame_eraseOpt _ _) (by decide)
  refine OnlyChanges.comp ?_ (frame_readOpt _) (by decide)
  exact OnlyChanges.refl _ _

theorem frame_roundSteps (s : State) :
    OnlyChanges [.ports, .evidence, .trap, .reports, .probe, .clock] s (roundSteps s) := by
  unfold roundSteps
  dsimp only
  refine OnlyChanges.comp ?_ (frame_set_probe _ _) (by decide)
  refine OnlyChanges.comp ?_ (frame_dealOld _ _) (by decide)
  refine OnlyChanges.comp ?_ (frame_set_round _ _ _) (by decide)
  exact OnlyChanges.refl _ _

theorem frame_uplinkBook (s : State) :
    OnlyChanges guardParts s (uplinkBook s) := by
  unfold uplinkBook
  split
  · refine OnlyChanges.foldl (fun t p => ?_) _ s
    split
    · exact frame_listenBook _ _ _
    · exact OnlyChanges.refl _ _
  · exact OnlyChanges.refl _ _

theorem frame_removeProbes (p : Port) (s : State) :
    OnlyChanges [.probe, .trap, .reports] s (removeProbes p s) := by
  unfold removeProbes
  refine OnlyChanges.comp ?_ (frame_eraseOpt _ _) (by decide)
  refine OnlyChanges.comp ?_ (frame_readOpt _) (by decide)
  exact OnlyChanges.refl _ _

/-! ### The Port Table -/

theorem frame_linkUpEvent (p : Port) (s : State) :
    OnlyChanges [.ports, .reports, .control, .order] s (linkUpEvent p s) := by
  unfold linkUpEvent
  try dsimp only
  repeat' first
    | with_reducible refine OnlyChanges.comp ?_ (frame_goPlain _ _ _ _) (by decide)
    | with_reducible refine OnlyChanges.comp ?_ (frame_modPort _ _ _) (by decide)
    | with_reducible refine OnlyChanges.comp ?_ (frame_wake _ _ _) (by decide)
    | split
    | with_reducible exact OnlyChanges.refl _ _
    | refine OnlyChanges.comp ?_ (frame_set_order _ _) (by decide)

theorem frame_linkDownTo (g : GuardState) (c : StateCause) (p : Port) (s : State) :
    OnlyChanges [.ports, .evidence, .trap, .reports, .probe, .order] s (linkDownTo g c p s) := by
  unfold linkDownTo
  dsimp only
  refine OnlyChanges.comp ?_ (frame_withdraw _ _) (by decide)
  refine OnlyChanges.comp ?_ (frame_dropProbe _ _) (by decide)
  refine OnlyChanges.comp ?_ (frame_removeProbes _ _) (by decide)
  refine OnlyChanges.comp ?_ (frame_modPort _ _ _) (by decide)
  split
  · refine OnlyChanges.comp ?_ (frame_set_order _ _) (by decide)
    refine OnlyChanges.comp ?_ (frame_modPort _ _ _) (by decide)
    exact OnlyChanges.refl _ _
  · refine OnlyChanges.comp ?_ (frame_goPlain _ _ _ _) (by decide)
    refine OnlyChanges.comp ?_ (frame_set_order _ _) (by decide)
    refine OnlyChanges.comp ?_ (frame_modPort _ _ _) (by decide)
    exact OnlyChanges.refl _ _

theorem frame_linkDownEvent (p : Port) (s : State) :
    OnlyChanges [.ports, .evidence, .trap, .reports, .probe, .order] s (linkDownEvent p s) := by
  unfold linkDownEvent
  refine OnlyChanges.comp ?_ (frame_linkDownTo _ _ _ _) (by decide)
  exact OnlyChanges.refl _ _

theorem frame_linkReport (p : Port) (up : Bool) (s : State) :
    OnlyChanges [.ports, .evidence, .trap, .reports, .probe, .order, .control] s (linkReport p up s) := by
  unfold linkReport
  split
  · split
    · refine OnlyChanges.comp ?_ (frame_linkUpEvent _ _) (by decide)
      exact OnlyChanges.refl _ _
    · refine OnlyChanges.comp ?_ (frame_linkDownEvent _ _) (by decide)
      exact OnlyChanges.refl _ _
  · exact OnlyChanges.refl _ _

theorem frame_absence (p : Port) (s : State) :
    OnlyChanges [.ports, .evidence, .trap, .reports, .probe, .order] s (absence p s) := by
  unfold absence
  dsimp only
  split
  · refine OnlyChanges.comp ?_ (frame_linkDownTo _ _ _ _) (by decide)
    refine OnlyChanges.comp ?_ (frame_modPort _ _ _) (by decide)
    exact OnlyChanges.refl _ _
  · split
    · refine OnlyChanges.comp ?_ (frame_modPort _ _ _) (by decide)
      exact OnlyChanges.refl _ _
    · refine OnlyChanges.comp ?_ (frame_goPlain _ _ _ _) (by decide)
      refine OnlyChanges.comp ?_ (frame_modPort _ _ _) (by decide)
      exact OnlyChanges.refl _ _

theorem frame_roleStep1 (n : Role) (p : Port) (s : State) :
    OnlyChanges [.ports, .reports] s (roleStep1 n p s) := by
  unfold roleStep1
  try dsimp only
  repeat' first
    | with_reducible refine OnlyChanges.comp ?_ (frame_goPlain _ _ _ _) (by decide)
    | with_reducible refine OnlyChanges.comp ?_ (frame_modPort _ _ _) (by decide)
    | split
    | with_reducible exact OnlyChanges.refl _ _

theorem frame_roleStep2 (o n : Role) (p : Port) (s : State) :
    OnlyChanges [.ports, .evidence, .trap, .reports, .probe] s (roleStep2 o n p s) := by
  unfold roleStep2
  dsimp only
  refine OnlyChanges.comp ?_ (frame_modPort _ _ _) (by decide)
  refine OnlyChanges.comp ?_ (frame_modPort _ _ _) (by decide)
  split
  · refine OnlyChanges.comp ?_ (frame_dropProbe _ _) (by decide)
    refine OnlyChanges.comp ?_ (frame_removeProbes _ _) (by decide)
    refine OnlyChanges.comp ?_ (frame_withdraw _ _) (by decide)
    exact OnlyChanges.refl _ _
  · refine OnlyChanges.comp ?_ (frame_removeProbes _ _) (by decide)
    refine OnlyChanges.comp ?_ (frame_withdraw _ _) (by decide)
    exact OnlyChanges.refl _ _

theorem frame_roleChange (r : Port → Role) (s : State) :
    OnlyChanges [.ports, .evidence, .trap, .reports, .probe] s (roleChange r s) := by
  unfold roleChange
  refine OnlyChanges.comp ?_ (OnlyChanges.foldl (fun _ _ => frame_roleStep2 _ _ _ _) _ _) (by decide)
  refine OnlyChanges.comp ?_ (OnlyChanges.foldl (fun _ _ => frame_roleStep1 _ _ _) _ _) (by decide)
  exact OnlyChanges.refl _ _

theorem frame_applyPolicy (q : Policy) (s : State) :
    OnlyChanges [.ports, .control] s (applyPolicy q s) := by
  unfold applyPolicy
  dsimp only
  refine OnlyChanges.comp ?_ (frame_set_control _ _) (by decide)
  refine OnlyChanges.comp ?_ (frame_mapPorts _ _) (by decide)
  exact OnlyChanges.refl _ _

/-! ### The Command Arbiter and the Guard Link Interface -/

theorem frame_grantSetport (p : Port) (s : State) :
    OnlyChanges [.ports, .arbiter, .glink] s (grantSetport p s) := by
  unfold grantSetport
  try dsimp only
  repeat' first
    | with_reducible refine OnlyChanges.comp ?_ (frame_handTx _ _) (by decide)
    | with_reducible refine OnlyChanges.comp ?_ (frame_modPort _ _ _) (by decide)
    | split
    | with_reducible exact OnlyChanges.refl _ _
    | refine OnlyChanges.comp ?_ (frame_set_channel _ _ _) (by decide)

theorem frame_grantProbe (p : Port) (s : State) :
    OnlyChanges [.probe, .arbiter, .glink] s (grantProbe p s) := by
  unfold grantProbe
  try dsimp only
  repeat' first
    | with_reducible refine OnlyChanges.comp ?_ (frame_skipProbe _) (by decide)
    | with_reducible refine OnlyChanges.comp ?_ (frame_handTx _ _) (by decide)
    | with_reducible refine OnlyChanges.comp ?_ (frame_writeOpt _ _ _) (by decide)
    | split
    | with_reducible exact OnlyChanges.refl _ _
    | refine OnlyChanges.comp ?_ (frame_set_channel _ _ _) (by decide)
    | refine OnlyChanges.comp ?_ (frame_set_probe _ _) (by decide)

theorem frame_commandSent (s : State) :
    OnlyChanges [.glink] s (commandSent s) := by
  intro a ha
  cases a <;> first | (simp only [Part.same, commandSent]; done) | (exfalso; revert ha; decide)

theorem frame_strobeSent (s : State) :
    OnlyChanges [.glink] s (strobeSent s) := by
  intro a ha
  cases a <;> first | (simp only [Part.same, strobeSent]; done) | (exfalso; revert ha; decide)

theorem frame_endCommand (s : State) :
    OnlyChanges [.glink] s (endCommand s) := by
  intro a ha
  cases a <;> first | (simp only [Part.same, endCommand]; done) | (exfalso; revert ha; decide)

theorem frame_ackSeen (s : State) :
    OnlyChanges [.arbiter] s (ackSeen s) := by
  intro a ha
  cases a <;> first | (simp only [Part.same, ackSeen]; done) | (exfalso; revert ha; decide)

theorem frame_setportConfirmed (p : Port) (s : State) :
    OnlyChanges [.ports] s (setportConfirmed p s) := by
  unfold setportConfirmed
  try dsimp only
  repeat' first
    | with_reducible refine OnlyChanges.comp ?_ (frame_modPort _ _ _) (by decide)
    | split
    | with_reducible exact OnlyChanges.refl _ _

theorem frame_leaveSweep (p : Port) (s : State) :
    OnlyChanges [.control] s (leaveSweep p s) := by
  intro a ha
  cases a <;> first | (simp only [Part.same, leaveSweep]; done) | (exfalso; revert ha; decide)

theorem frame_setportTimedOut (p q : Port) (s : State) :
    OnlyChanges [.ports, .arbiter] s (setportTimedOut p q s) := by
  unfold setportTimedOut
  try dsimp only
  repeat' first
    | with_reducible refine OnlyChanges.comp ?_ (frame_modPort _ _ _) (by decide)
    | split
    | with_reducible exact OnlyChanges.refl _ _
    | refine OnlyChanges.comp ?_ (frame_set_arbiter _ _) (by decide)

theorem frame_linkFails (p : Port) (k : CommandKind) (s : State) :
    OnlyChanges [.ports, .glink, .arbiter, .probe, .reports] s (linkFails p k s) := by
  unfold linkFails
  dsimp only
  refine OnlyChanges.comp ?_ (frame_set_fault _ _ _ _) (by decide)
  refine OnlyChanges.comp ?_ (frame_mapPorts _ _) (by decide)
  refine OnlyChanges.comp ?_ (frame_report _ _) (by decide)
  exact OnlyChanges.refl _ _

theorem frame_countTimeout (s : State) :
    OnlyChanges [.arbiter] s (countTimeout s) := by
  intro a ha
  cases a <;> first | (simp only [Part.same, countTimeout]; done) | (exfalso; revert ha; decide)

theorem frame_judgeLink (p : Port) (k : CommandKind) (s : State) :
    OnlyChanges [.ports, .glink, .arbiter, .probe, .reports] s (judgeLink p k s) := by
  unfold judgeLink
  split
  · refine OnlyChanges.comp ?_ (frame_linkFails _ _ _) (by decide)
    exact OnlyChanges.refl _ _
  · exact OnlyChanges.refl _ _

theorem frame_commandTimeout (o : Outstanding) (s : State) :
    OnlyChanges [.ports, .glink, .arbiter, .probe, .reports, .trap] s (commandTimeout o s) := by
  unfold commandTimeout
  try dsimp only
  repeat' first
    | with_reducible refine OnlyChanges.comp ?_ (frame_judgeLink _ _ _) (by decide)
    | with_reducible refine OnlyChanges.comp ?_ (frame_countTimeout _) (by decide)
    | with_reducible refine OnlyChanges.comp ?_ (frame_setportTimedOut _ _ _) (by decide)
    | with_reducible refine OnlyChanges.comp ?_ (frame_probeEnded _ _ _) (by decide)
    | with_reducible refine OnlyChanges.comp ?_ (frame_endCommand _) (by decide)
    | split
    | with_reducible exact OnlyChanges.refl _ _
    | refine OnlyChanges.comp ?_ (frame_set_glink _ _) (by decide)

theorem frame_linkReturns (f : PortField) (k : InboundKind) (s : State) :
    OnlyChanges [.glink, .arbiter, .reports] s (linkReturns f k s) := by
  unfold linkReturns
  try dsimp only
  repeat' first
    | with_reducible refine OnlyChanges.comp ?_ (frame_report _ _) (by decide)
    | split
    | with_reducible exact OnlyChanges.refl _ _
    | refine OnlyChanges.comp ?_ (frame_set_channel _ _ _) (by decide)

/-! ### The Mode Unit and the Settings Store -/

theorem frame_clearOverrides (s : State) :
    OnlyChanges [.ports] s (clearOverrides s) := by
  unfold clearOverrides
  refine OnlyChanges.comp ?_ (frame_mapPorts _ _) (by decide)
  exact OnlyChanges.refl _ _

theorem frame_enterAutonomous (c : ModeCause) (s : State) :
    OnlyChanges fallParts s (enterAutonomous c s) := by
  unfold enterAutonomous
  dsimp only
  refine OnlyChanges.comp ?_ (frame_roleChange _ _) (by decide)
  refine OnlyChanges.comp ?_ (frame_applyPolicy _ _) (by decide)
  refine OnlyChanges.comp ?_ (frame_clearOverrides _) (by decide)
  refine OnlyChanges.comp ?_ (frame_setMode _ _ _) (by decide)
  exact OnlyChanges.refl _ _

theorem frame_startDone (s : State) :
    OnlyChanges [.ports, .evidence, .trap, .reports, .probe, .control, .clock, .glink] s (startDone s) := by
  unfold startDone
  dsimp only
  refine OnlyChanges.comp ?_ (frame_roundSteps _) (by decide)
  refine OnlyChanges.comp ?_ (frame_handTx _ _) (by decide)
  refine OnlyChanges.comp ?_ (frame_set_clock _ _) (by decide)
  split
  · refine OnlyChanges.comp ?_ (frame_setMode _ _ _) (by decide)
    exact OnlyChanges.refl _ _
  · refine OnlyChanges.comp ?_ (frame_enterAutonomous _ _) (by decide)
    exact OnlyChanges.refl _ _

theorem frame_hostLostEnds (s : State) :
    OnlyChanges fallParts s (hostLostEnds s) := by
  unfold hostLostEnds
  try dsimp only
  repeat' first
    | with_reducible refine OnlyChanges.comp ?_ (frame_enterAutonomous _ _) (by decide)
    | split
    | with_reducible exact OnlyChanges.refl _ _

theorem frame_resetTo (c : ResetCause) (b : Bool) (s : State) :
    OnlyChanges [.ports, .order, .clock, .meter, .probe, .evidence, .trap, .arbiter, .glink, .mgmt, .control, .reports, .settings] s (resetTo c b s) := by
  intro a ha
  cases a <;> first | (simp only [Part.same, resetTo]; done) | (exfalso; revert ha; decide)

theorem frame_loadDone (s : State) :
    OnlyChanges [.ports, .control, .settings] s (loadDone s) := by
  intro a ha
  cases a <;> first | (simp only [Part.same, loadDone]; done) | (exfalso; revert ha; decide)

theorem frame_startWrite (a : AreaName) (s : State) :
    OnlyChanges [.settings] s (startWrite a s) := by
  intro a ha
  simp only [startWrite]
  repeat' split
  all_goals cases a <;> first | rfl | (exfalso; revert ha; decide)

theorem frame_writeEnds (b : Bool) (s : State) :
    OnlyChanges [.settings, .reports] s (writeEnds b s) := by
  unfold writeEnds
  try dsimp only
  repeat' first
    | with_reducible refine OnlyChanges.comp ?_ (frame_report _ _) (by decide)
    | split
    | with_reducible exact OnlyChanges.refl _ _
    | refine OnlyChanges.comp ?_ (frame_set_settings _ _) (by decide)

theorem frame_keyFalls (s : State) :
    OnlyChanges [.settings, .reports, .key] s (keyFalls s) := by
  unfold keyFalls
  try dsimp only
  repeat' first
    | with_reducible refine OnlyChanges.comp ?_ (frame_report _ _) (by decide)
    | split
    | with_reducible exact OnlyChanges.refl _ _
    | refine OnlyChanges.comp ?_ (frame_set_store _ _ _) (by decide)

theorem frame_sampleKey (b : Bool) (s : State) :
    OnlyChanges [.settings, .reports, .key] s (sampleKey b s) := by
  unfold sampleKey
  try dsimp only
  repeat' first
    | with_reducible refine OnlyChanges.comp ?_ (frame_keyFalls _) (by decide)
    | split
    | with_reducible exact OnlyChanges.refl _ _
    | refine OnlyChanges.comp ?_ (frame_set_key _ _) (by decide)

/-! ### The interval -/

theorem frame_takeRound (s : State) :
    OnlyChanges [.ports, .evidence, .trap, .reports, .probe, .clock] s (takeRound s) := by
  unfold takeRound
  split
  · refine OnlyChanges.comp ?_ (frame_uplinkBook _) (by decide)
    refine OnlyChanges.comp ?_ (frame_roundSteps _) (by decide)
    exact OnlyChanges.refl _ _
  · exact OnlyChanges.refl _ _

theorem frame_portEnds (p : Port) (s : State) :
    OnlyChanges guardParts s (portEnds p s) := by
  unfold portEnds
  try dsimp only
  repeat' first
    | with_reducible refine OnlyChanges.comp ?_ (frame_decayEnds _ _) (by decide)
    | with_reducible refine OnlyChanges.comp ?_ (frame_holdEnds _ _) (by decide)
    | with_reducible refine OnlyChanges.comp ?_ (frame_throttleEnds _ _) (by decide)
    | split
    | with_reducible exact OnlyChanges.refl _ _

theorem frame_lowerPortsEnd (p : Port) (s : State) :
    OnlyChanges guardParts s (lowerPortsEnd p s) := by
  unfold lowerPortsEnd
  try dsimp only
  repeat' first
    | with_reducible refine OnlyChanges.comp ?_ (OnlyChanges.foldl (fun _ _ => frame_portEnds _ _) _ _) (by decide)
    | split
    | with_reducible exact OnlyChanges.refl _ _

theorem frame_strobesSent (s : State) :
    OnlyChanges [.glink] s (strobesSent s) := by
  unfold strobesSent
  try dsimp only
  repeat' first
    | with_reducible refine OnlyChanges.comp ?_ (frame_strobeSent _) (by decide)
    | with_reducible refine OnlyChanges.comp ?_ (frame_commandSent _) (by decide)
    | split
    | with_reducible exact OnlyChanges.refl _ _

theorem frame_settleInterval (s : State) :
    OnlyChanges [.ports, .evidence, .trap, .reports, .probe, .control, .clock, .glink] s (settleInterval s) := by
  unfold settleInterval
  dsimp only
  refine OnlyChanges.comp ?_ (frame_strobesSent _) (by decide)
  refine OnlyChanges.comp ?_ (frame_hostLostEnds _) (by decide)
  refine OnlyChanges.comp ?_ (OnlyChanges.foldl (fun _ _ => frame_portEnds _ _) _ _) (by decide)
  refine OnlyChanges.comp ?_ (frame_takeRound _) (by decide)
  refine OnlyChanges.comp ?_ (frame_expireDue _) (by decide)
  exact OnlyChanges.refl _ _

theorem frame_clockTick (s : State) :
    OnlyChanges [.clock] s (clockTick s) := by
  intro a ha
  cases a <;> first | (simp only [Part.same, clockTick]; done) | (exfalso; revert ha; decide)

theorem frame_paceTick (s : State) :
    OnlyChanges [.arbiter] s (paceTick s) := by
  intro a ha
  simp only [paceTick]
  repeat' split
  all_goals cases a <;> first | rfl | (exfalso; revert ha; decide)

theorem frame_hostTick (s : State) :
    OnlyChanges [.control] s (hostTick s) := by
  intro a ha
  simp only [hostTick]
  repeat' split
  all_goals cases a <;> first | rfl | (exfalso; revert ha; decide)

theorem frame_intervalTick (s : State) :
    OnlyChanges [.ports, .trap, .reports, .probe, .control, .clock, .glink, .meter, .arbiter] s (intervalTick s) := by
  unfold intervalTick
  dsimp only
  refine OnlyChanges.comp ?_ (frame_hostTick _) (by decide)
  refine OnlyChanges.comp ?_ (frame_mapPorts _ _) (by decide)
  refine OnlyChanges.comp ?_ (frame_readOpt _) (by decide)
  refine OnlyChanges.comp ?_ (frame_paceTick _) (by decide)
  refine OnlyChanges.comp ?_ (frame_handTx _ _) (by decide)
  refine OnlyChanges.comp ?_ (frame_meterInterval _) (by decide)
  refine OnlyChanges.comp ?_ (frame_clockTick _) (by decide)
  exact OnlyChanges.refl _ _

/-! ### The Management Line Interface -/

theorem frame_oweReject (r : Reject) (s : State) :
    OnlyChanges [.mgmt] s (oweReject r s) := by
  intro a ha
  simp only [oweReject]
  repeat' split
  all_goals cases a <;> first | rfl | (exfalso; revert ha; decide)

theorem frame_frameTruncated (s : State) :
    OnlyChanges [.mgmt] s (frameTruncated s) := by
  unfold frameTruncated
  try dsimp only
  repeat' first
    | with_reducible refine OnlyChanges.comp ?_ (frame_oweReject _ _) (by decide)
    | split
    | with_reducible exact OnlyChanges.refl _ _
    | refine OnlyChanges.comp ?_ (frame_set_mgmt _ _) (by decide)

theorem frame_frameCheckFails (s : State) :
    OnlyChanges [.mgmt] s (frameCheckFails s) := by
  unfold frameCheckFails
  try dsimp only
  repeat' first
    | with_reducible refine OnlyChanges.comp ?_ (frame_oweReject _ _) (by decide)
    | split
    | with_reducible exact OnlyChanges.refl _ _
    | refine OnlyChanges.comp ?_ (frame_set_mgmt _ _) (by decide)

theorem frame_frameBusy (k : Byte) (s : State) :
    OnlyChanges [.mgmt] s (frameBusy k s) := by
  unfold frameBusy
  try dsimp only
  repeat' first
    | with_reducible refine OnlyChanges.comp ?_ (frame_oweReject _ _) (by decide)
    | split
    | with_reducible exact OnlyChanges.refl _ _
    | refine OnlyChanges.comp ?_ (frame_set_mgmt _ _) (by decide)

theorem frame_takeFrame (b : List Byte) (s : State) :
    OnlyChanges [.mgmt, .ports, .evidence, .trap, .reports, .probe, .control] s (takeFrame b s) := by
  unfold takeFrame
  try dsimp only
  repeat' first
    | with_reducible refine OnlyChanges.comp ?_ (frame_hostLostEnds _) (by decide)
    | split
    | with_reducible exact OnlyChanges.refl _ _
    | refine OnlyChanges.comp ?_ (frame_set_line _ _ _) (by decide)

theorem frame_receiveChar (b : Byte) (x : Bool) (s : State) :
    OnlyChanges [.mgmt] s (receiveChar b x s) := by
  unfold receiveChar
  try dsimp only
  repeat' first
    | with_reducible refine OnlyChanges.comp ?_ (frame_frameTruncated _) (by decide)
    | split
    | with_reducible exact OnlyChanges.refl _ _
    | refine OnlyChanges.comp ?_ (frame_set_mgmt _ _) (by decide)

theorem frame_replyEnds (s : State) :
    OnlyChanges [.mgmt] s (replyEnds s) := by
  intro a ha
  simp only [replyEnds]
  repeat' split
  all_goals cases a <;> first | rfl | (exfalso; revert ha; decide)

end Sys2Proof.Machine
end

