-- ==== Sys2Proof/Laws/Report.lean ====
section
/-! SUPPORT. What a report record handed to the Report Unit can do. -/

namespace Sys2Proof.Machine

/-- The three outcomes of R168, as equations. -/
theorem report_cases (b : ReportBody) (s : State) :
    (s.reports.overflow = true ∧
      report b s = { s with reports := { s.reports with lost := min 65535 (s.reports.lost + 1) } }) ∨
    (s.reports.overflow = false ∧ s.reports.queue.length < 64 ∧
      report b s = { s with reports := { s.reports with queue := s.reports.queue ++ [⟨s.clock.stamp, b⟩] } }) ∨
    (s.reports.overflow = false ∧ 64 ≤ s.reports.queue.length ∧
      report b s = { s with reports := { s.reports with overflow := true, lost := 1, acknowledged := false } }) := by
  cases h : s.reports.overflow with
  | true => exact Or.inl ⟨rfl, by simp only [report, h, if_true]; rfl⟩
  | false =>
    by_cases h' : s.reports.queue.length < 64
    · refine Or.inr (Or.inl ⟨rfl, h', ?_⟩)
      simp only [report, h, Config.queueMax, if_pos h', Bool.false_eq_true, if_false]
    · refine Or.inr (Or.inr ⟨rfl, Nat.not_lt.mp h', ?_⟩)
      simp only [report, h, Config.queueMax, if_neg h', Bool.false_eq_true, if_false]

/-- A report changes the Report Unit alone. -/
theorem report_eq (b : ReportBody) (s : State) : report b s = { s with reports := (report b s).reports } := by
  rcases report_cases b s with ⟨_, h⟩ | ⟨_, _, h⟩ | ⟨_, _, h⟩ <;> rw [h]

/-- What a report leaves in the Report Unit depends on the unit and the interval stamp alone. -/
theorem report_reports_congr (b : ReportBody) {s t : State} (h : t.reports = s.reports)
    (h' : t.clock.stamp = s.clock.stamp) : (report b t).reports = (report b s).reports := by
  rcases report_cases b s with ⟨a, e⟩ | ⟨a, c, e⟩ | ⟨a, c, e⟩ <;>
    rcases report_cases b t with ⟨a', e'⟩ | ⟨a', c', e'⟩ | ⟨a', c', e'⟩ <;>
    first
    | (rw [h, a] at a'; cases a'; done)
    | (rw [h] at c'; omega)
    | (rw [e, e', h, h'])
    | (rw [e, e', h])

/-- A report that finds room is appended at the tail. -/
theorem report_room (b : ReportBody) {s : State} (h : s.reports.overflow = false)
    (h' : s.reports.queue.length < 64) :
    report b s = { s with reports := { s.reports with queue := s.reports.queue ++ [⟨s.clock.stamp, b⟩] } } := by
  rcases report_cases b s with ⟨a, _⟩ | ⟨_, _, e⟩ | ⟨_, c, _⟩
  · rw [h] at a; exact absurd a (by simp)
  · exact e
  · exact absurd h' (Nat.not_lt.mpr c)

/-- A report never removes a record. -/
theorem report_prefix (b : ReportBody) (s : State) : s.reports.queue <+: (report b s).reports.queue := by
  rcases report_cases b s with ⟨_, e⟩ | ⟨_, _, e⟩ | ⟨_, _, e⟩ <;> rw [e]
  · exact List.prefix_append _ _

@[simp] theorem report_watch (b : ReportBody) (s : State) : (report b s).reports.watch = s.reports.watch := by
  rcases report_cases b s with ⟨_, e⟩ | ⟨_, _, e⟩ | ⟨_, _, e⟩ <;> rw [e]

/-- A report keeps the queue within its size and the overflow marks in step. -/
theorem report_fits (b : ReportBody) {s : State} (h : QueueFits s) : QueueFits (report b s) := by
  rcases report_cases b s with ⟨a, e⟩ | ⟨a, c, e⟩ | ⟨a, c, e⟩ <;> rw [e]
  · exact ⟨h.size, Nat.min_le_left _ _, fun h'' => absurd h'' (by simp [a])⟩
  · exact ⟨by simp only [List.length_append, List.length_singleton]; exact c, h.lost, h.clear⟩
  · exact ⟨h.size, (by decide : 1 ≤ 65535), fun h'' => absurd h'' (by simp)⟩

/-- The queue depends on the Report Unit alone. -/
theorem QueueFits.congr {s t : State} (h : QueueFits s) (e : t.reports = s.reports) : QueueFits t :=
  ⟨e ▸ h.size, e ▸ h.lost, e ▸ h.clear⟩

@[simp] theorem report_ports (b : ReportBody) (s : State) : (report b s).ports = s.ports := by rw [report_eq]
@[simp] theorem report_order (b : ReportBody) (s : State) : (report b s).order = s.order := by rw [report_eq]
@[simp] theorem report_clock (b : ReportBody) (s : State) : (report b s).clock = s.clock := by rw [report_eq]
@[simp] theorem report_meter (b : ReportBody) (s : State) : (report b s).meter = s.meter := by rw [report_eq]
@[simp] theorem report_probe (b : ReportBody) (s : State) : (report b s).probe = s.probe := by rw [report_eq]
@[simp] theorem report_evidence (b : ReportBody) (s : State) : (report b s).evidence = s.evidence := by
  rw [report_eq]
@[simp] theorem report_trap (b : ReportBody) (s : State) : (report b s).trap = s.trap := by rw [report_eq]
@[simp] theorem report_arbiter (b : ReportBody) (s : State) : (report b s).arbiter = s.arbiter := by rw [report_eq]
@[simp] theorem report_glink (b : ReportBody) (s : State) : (report b s).glink = s.glink := by rw [report_eq]
@[simp] theorem report_mgmt (b : ReportBody) (s : State) : (report b s).mgmt = s.mgmt := by rw [report_eq]
@[simp] theorem report_control (b : ReportBody) (s : State) : (report b s).control = s.control := by rw [report_eq]
@[simp] theorem report_settings (b : ReportBody) (s : State) : (report b s).settings = s.settings := by
  rw [report_eq]
@[simp] theorem report_identity (b : ReportBody) (s : State) : (report b s).identity = s.identity := by
  rw [report_eq]
@[simp] theorem report_key (b : ReportBody) (s : State) : (report b s).key = s.key := by rw [report_eq]
@[simp] theorem report_pending (b : ReportBody) (s : State) : (report b s).pending = s.pending := by rw [report_eq]
@[simp] theorem port_report (b : ReportBody) (s : State) (p : Port) : (report b s).port p = s.port p := by
  unfold State.port; rw [report_ports]

end Sys2Proof.Machine
end

