-- ==== Sys2Proof/Laws/Guard.lean ====
section
/-! SUPPORT. What every guard and evidence event leaves alone in the port records: only the guard state, the
counts of the guard record, the wanted state and the pending flag move, and a port in a linked state stays in
one. -/

namespace Sys2Proof.Machine

/-- The fields of a record that no guard event changes. -/
structure PortRec.Kept (r t : PortRec) : Prop where
  role : t.role = r.role
  present : t.present = r.present
  linkUp : t.linkUp = r.linkUp
  override : t.override = r.override
  lastF : t.lastF = r.lastF
  avgE : t.avgE = r.avgE
  creditB : t.creditB = r.creditB
  trip : t.trip = r.trip
  mark : t.mark = r.mark
  confirmed : t.confirmed = r.confirmed
  inFlight : t.inFlight = r.inFlight
  linked : t.guard.linked = r.guard.linked

/-- Every record keeps them. -/
def Kept (s t : State) : Prop := ∀ p, (s.port p).Kept (t.port p)

theorem PortRec.Kept.refl (r : PortRec) : r.Kept r := ⟨rfl, rfl, rfl, rfl, rfl, rfl, rfl, rfl, rfl, rfl, rfl, rfl⟩

theorem PortRec.Kept.trans {a b c : PortRec} (h : a.Kept b) (k : b.Kept c) : a.Kept c :=
  ⟨k.role.trans h.role, k.present.trans h.present, k.linkUp.trans h.linkUp, k.override.trans h.override,
    k.lastF.trans h.lastF, k.avgE.trans h.avgE, k.creditB.trans h.creditB, k.trip.trans h.trip,
    k.mark.trans h.mark, k.confirmed.trans h.confirmed, k.inFlight.trans h.inFlight, k.linked.trans h.linked⟩

theorem Kept.refl (s : State) : Kept s s := fun p => PortRec.Kept.refl (s.port p)

theorem Kept.trans {s t u : State} (h : Kept s t) (k : Kept t u) : Kept s u := fun p => (h p).trans (k p)

theorem Kept.of_ports {s t : State} (h : t.ports = s.ports) : Kept s t := fun p => by
  rw [port_congr h]; exact PortRec.Kept.refl _

theorem Kept.foldl {α : Type} {f : State → α → State} (h : ∀ s a, Kept s (f s a)) :
    ∀ (l : List α) (s : State), Kept s (l.foldl f s)
  | [], s => Kept.refl s
  | a :: l, s => (h s a).trans (Kept.foldl h l (f s a))

theorem Kept.of_part {l : List Part} {s t : State} (h : OnlyChanges l s t) (d : Part.ports ∉ l) : Kept s t :=
  Kept.of_ports (h .ports d)

theorem kept_setPort {s : State} {p : Port} {r : PortRec} (h : (s.port p).Kept r) : Kept s (s.setPort p r) := by
  intro q
  rw [port_setPort]
  split
  · next e => subst e; exact h
  · exact PortRec.Kept.refl _

theorem kept_modPort {s : State} {p : Port} {f : PortRec → PortRec} (h : (s.port p).Kept (f (s.port p))) :
    Kept s (s.modPort p f) := kept_setPort h

theorem deriveWanted_kept (r : PortRec) : r.Kept r.deriveWanted := by
  unfold PortRec.deriveWanted
  simp only []
  split <;> exact ⟨rfl, rfl, rfl, rfl, rfl, rfl, rfl, rfl, rfl, rfl, rfl, rfl⟩

theorem deriveWanted_guard (r : PortRec) : r.deriveWanted.guard = r.guard := by
  unfold PortRec.deriveWanted; simp only []; split <;> rfl

theorem deriveWanted_strike (r : PortRec) : r.deriveWanted.strike = r.strike := by
  unfold PortRec.deriveWanted; simp only []; split <;> rfl

theorem deriveWanted_wanted (r : PortRec) : r.deriveWanted.wanted = wantedOf r.override r.guard := by
  unfold PortRec.deriveWanted
  simp only []
  split
  · next h => exact h.symm
  · rfl

/-- The record that has entered a guard state. -/
theorem enter_spec (r : PortRec) (g : GuardState) (n k : Nat) :
    (r.enter g n k).guard = g ∧ (r.enter g n k).listen = 0 ∧ (r.enter g n k).throttleHold = n ∧
      (r.enter g n k).hold = k ∧ (r.enter g n k).decay = 0 ∧ (r.enter g n k).strike = r.strike ∧
      (r.enter g n k).throttleDue = false ∧ (r.enter g n k).holdDue = false ∧
      (r.enter g n k).decayDue = false ∧ (r.enter g n k).wanted = wantedOf r.override g := by
  unfold PortRec.enter PortRec.deriveWanted
  simp only []
  split
  · next h => exact ⟨rfl, rfl, rfl, rfl, rfl, rfl, rfl, rfl, rfl, h.symm⟩
  · exact ⟨rfl, rfl, rfl, rfl, rfl, rfl, rfl, rfl, rfl, rfl⟩

theorem enter_kept {r : PortRec} {g : GuardState} (n k : Nat) (h : g.linked = r.guard.linked) :
    r.Kept (r.enter g n k) := by
  unfold PortRec.enter PortRec.deriveWanted
  simp only []
  split <;> exact ⟨rfl, rfl, rfl, rfl, rfl, rfl, rfl, rfl, rfl, rfl, rfl, h⟩

/-- A change of guard state: the port's record enters the state, every other record stays. -/
theorem moveGuard_port (p q : Port) (g : GuardState) (n k : Nat) (c : StateCause) (s : State) :
    (moveGuard p g n k c s).port q = if q = p then (s.port p).enter g n k else s.port q := by
  unfold moveGuard; rw [port_report, port_setPort]

theorem moveGuard_reports (p : Port) (g : GuardState) (n k : Nat) (c : StateCause) (s : State) :
    (moveGuard p g n k c s).reports = (report (.state p (s.port p).guard g c) s).reports :=
  report_reports_congr _ rfl rfl

theorem kept_moveGuard {p : Port} {g : GuardState} {s : State} (n k : Nat) (c : StateCause)
    (h : g.linked = (s.port p).guard.linked) : Kept s (moveGuard p g n k c s) := by
  intro q
  rw [moveGuard_port]
  split
  · next e => subst e; exact enter_kept n k h
  · exact PortRec.Kept.refl _

theorem kept_goPlain {p : Port} {g : GuardState} {s : State} (c : StateCause)
    (h : g.linked = (s.port p).guard.linked) : Kept s (goPlain p g c s) := kept_moveGuard 0 0 c h

theorem kept_goThrottle {p : Port} {s : State} (c : StateCause) (h : (s.port p).guard.linked = true) :
    Kept s (goThrottle p c s) := kept_moveGuard _ 0 c (by rw [h]; rfl)

theorem kept_goBlocked {p : Port} {s : State} (h : (s.port p).guard.linked = true) : Kept s (goBlocked p s) := by
  unfold goBlocked
  refine (kept_modPort (f := fun r => { r with strike := strikeUp (s.port p).strike }) ?_).trans
    (kept_moveGuard _ _ _ ?_)
  · exact ⟨rfl, rfl, rfl, rfl, rfl, rfl, rfl, rfl, rfl, rfl, rfl, rfl⟩
  · rw [port_modPort_self]; exact h.symm

/-! ### Guard events -/

theorem kept_evidenceEvent (p : Port) (s : State) : Kept s (evidenceEvent p s) := by
  unfold evidenceEvent
  split
  · exact kept_modPort ⟨rfl, rfl, rfl, rfl, rfl, rfl, rfl, rfl, rfl, rfl, rfl, rfl⟩
  · next h => exact kept_goPlain _ (by rw [h]; rfl)
  all_goals exact Kept.refl s

theorem kept_evidenceGone (p : Port) (s : State) : Kept s (evidenceGone p s) := by
  unfold evidenceGone
  split
  · next h => exact kept_goPlain _ (by rw [h]; rfl)
  · next h =>
    split
    · exact kept_goPlain _ (by rw [h]; rfl)
    · exact Kept.refl s
  all_goals exact Kept.refl s

theorem blockable_linked {g : GuardState} (h : g.blockable = true) : g.linked = true := by
  cases g <;> first | rfl | cases h

theorem kept_confirmEvent (p : Port) (s : State) : Kept s (confirmEvent p s) := by
  unfold confirmEvent
  split
  · next h => exact kept_goBlocked (blockable_linked h)
  · exact Kept.refl s

theorem kept_tripPassed (p : Port) (s : State) : Kept s (tripPassed p s) := by
  unfold tripPassed
  split
  · next h => exact kept_goThrottle _ (by rw [h]; rfl)
  · next h => exact kept_goThrottle _ (by rw [h]; rfl)
  · exact kept_modPort ⟨rfl, rfl, rfl, rfl, rfl, rfl, rfl, rfl, rfl, rfl, rfl, rfl⟩
  · exact kept_modPort ⟨rfl, rfl, rfl, rfl, rfl, rfl, rfl, rfl, rfl, rfl, rfl, rfl⟩
  all_goals exact Kept.refl s

theorem kept_leaveListen {p : Port} {s : State} (h : (s.port p).guard.linked = true) :
    Kept s (leaveListen p s) := by
  unfold leaveListen
  split
  · exact kept_goThrottle _ h
  · exact kept_goPlain _ (by rw [h]; rfl)

theorem kept_listenJudge {p : Port} (c : Bool) {s : State} (h : (s.port p).guard.linked = true) :
    Kept s (listenJudge p c s) := by
  unfold listenJudge
  have m : ∀ n, Kept s (s.modPort p fun r => { r with listen := n }) := fun n =>
    kept_modPort ⟨rfl, rfl, rfl, rfl, rfl, rfl, rfl, rfl, rfl, rfl, rfl, rfl⟩
  split
  · simp only []
    split
    · exact (m _).trans (kept_leaveListen (by rw [port_modPort_self]; exact h))
    · exact m _
  · exact m _

theorem kept_evidenceGoneCheck (v : Port → Bool) (s : State) : Kept s (evidenceGoneCheck v s) :=
  Kept.foldl (fun t p => kept_evidenceGone p t) _ s

theorem kept_readLet (s : State) : Kept s (readLet s) := Kept.of_part (frame_readLet s) (by decide)

theorem kept_readOpt (s : State) : Kept s (readOpt s) := Kept.of_part (frame_readOpt s) (by decide)

theorem kept_settleSweep (s : State) : Kept s (settleSweep s) := by
  unfold settleSweep
  split
  · exact (kept_readLet s).trans
      ((Kept.of_ports rfl : Kept (readLet s)
          { readLet s with evidence := { (readLet s).evidence with sweepOwed := false } }).trans
        (Kept.foldl (fun t p => kept_evidenceGone p t) _ _))
  · exact Kept.refl s

theorem kept_withdraw (c : LetEntry → Bool) (s : State) : Kept s (withdraw c s) := by
  unfold withdraw
  exact (kept_readLet s).trans
    ((Kept.of_part (frame_eraseLet c _) (by decide)).trans
      ((kept_evidenceGoneCheck _ _).trans (kept_settleSweep _)))

theorem kept_leaveThrottle {p : Port} {s : State} (h : (s.port p).guard.linked = true) :
    Kept s (leaveThrottle p s) := by
  unfold leaveThrottle
  have k : ((readLet s).port p).guard.linked = true := ((kept_readLet s) p).linked.trans h
  refine (kept_readLet s).trans (Kept.trans ?_ (kept_settleSweep _))
  split
  · exact kept_goPlain _ (by rw [k]; rfl)
  · exact kept_goPlain _ (by rw [k]; rfl)

theorem kept_clearEvent (p : Port) (s : State) : Kept s (clearEvent p s) := by
  unfold clearEvent
  split
  · next h => exact kept_leaveThrottle (by rw [h.1]; rfl)
  · exact Kept.refl s

theorem kept_throttleEnds (p : Port) (s : State) : Kept s (throttleEnds p s) := by
  have m : Kept s (s.modPort p fun r => { r with throttleDue := false }) :=
    kept_modPort ⟨rfl, rfl, rfl, rfl, rfl, rfl, rfl, rfl, rfl, rfl, rfl, rfl⟩
  unfold throttleEnds
  simp only []
  split
  · next h => exact m.trans (kept_leaveThrottle (by rw [port_modPort_self]; exact congrArg _ h.2.1))
  · exact m

theorem kept_holdEnds (p : Port) (s : State) : Kept s (holdEnds p s) := by
  have m : Kept s (s.modPort p fun r => { r with holdDue := false }) :=
    kept_modPort ⟨rfl, rfl, rfl, rfl, rfl, rfl, rfl, rfl, rfl, rfl, rfl, rfl⟩
  unfold holdEnds
  simp only []
  split
  · next h =>
    refine m.trans ((kept_readLet _).trans (Kept.trans ?_ (kept_settleSweep _)))
    split
    · exact Kept.refl _
    · refine kept_goPlain _ ?_
      rw [((kept_readLet _) p).linked, port_modPort_self]
      exact (congrArg GuardState.linked h.2.1).symm
  · exact m

theorem kept_decayEnds (p : Port) (s : State) : Kept s (decayEnds p s) := by
  unfold decayEnds
  split
  · exact kept_modPort ⟨rfl, rfl, rfl, rfl, rfl, rfl, rfl, rfl, rfl, rfl, rfl, rfl⟩
  · exact Kept.refl s

theorem kept_portEnds (p : Port) (s : State) : Kept s (portEnds p s) :=
  (kept_throttleEnds p s).trans ((kept_holdEnds p _).trans (kept_decayEnds p _))

theorem kept_listenBook (p : Port) (q : Bool) (s : State) : Kept s (listenBook p q s) := by
  unfold listenBook
  split
  · next h =>
    refine (kept_readLet s).trans (Kept.trans (kept_listenJudge _ ?_) (kept_settleSweep _))
    rw [((kept_readLet s) p).linked, h]; rfl
  · exact Kept.refl s

/-! ### Evidence -/

theorem kept_writeLet (i : Fin 16) (e : LetEntry) (s : State) : Kept s (writeLet i e s) :=
  Kept.of_part (frame_writeLet i e s) (by decide)

theorem kept_confirmEffects (e : LetEntry) (first : Bool) (s : State) : Kept s (confirmEffects e first s) := by
  unfold confirmEffects
  split
  · simp only []
    split
    · exact (kept_confirmEvent _ s).trans (Kept.of_part (frame_report _ _) (by decide))
    · exact kept_confirmEvent _ s
  · split
    · exact Kept.of_part (frame_report _ _) (by decide)
    · exact Kept.refl s

theorem kept_confirmSlot (i : Fin 16) (s : State) : Kept s (confirmSlot i s) := by
  unfold confirmSlot
  split
  · exact Kept.refl s
  · exact (kept_writeLet i _ s).trans (kept_confirmEffects _ _ _)

theorem kept_confirmCheck (i : Fin 16) (s : State) : Kept s (confirmCheck i s) := by
  unfold confirmCheck
  split
  · exact Kept.refl s
  · split
    · exact kept_confirmSlot i s
    · exact Kept.refl s

theorem kept_evictedGone (v : Option Port) (s : State) : Kept s (evictedGone v s) := by
  unfold evictedGone
  split
  · split
    · exact Kept.refl s
    · exact kept_evidenceGone _ s
  · exact Kept.refl s

theorem kept_newVictimEvidence (v : Option Port) (s : State) : Kept s (newVictimEvidence v s) := by
  unfold newVictimEvidence
  split
  · exact kept_evidenceEvent _ s
  · exact Kept.refl s

theorem kept_createIn (i : Fin 16) (x y : Port) (v : Option Port) (s : State) : Kept s (createIn i x y v s) :=
  (kept_writeLet i _ s).trans
    ((kept_evictedGone v _).trans ((kept_newVictimEvidence _ _).trans (kept_confirmCheck i _)))

theorem kept_createEntry (x y : Port) (s : State) : Kept s (createEntry x y s) := by
  unfold createEntry
  split
  · exact kept_createIn _ x y none s
  · split
    · exact Kept.refl s
    · exact (Kept.of_part (frame_set_evidence s _) (by decide)).trans (kept_createIn _ x y _ _)

theorem kept_creditSlot (i : Fin 16) (s : State) : Kept s (creditSlot i s) := by
  unfold creditSlot
  split
  · exact Kept.refl s
  · exact (kept_writeLet i _ s).trans (kept_confirmCheck i _)

theorem kept_sighting (x y : Port) (s : State) : Kept s (sighting x y s) := by
  unfold sighting
  refine (kept_readLet s).trans (Kept.trans ?_ (kept_settleSweep _))
  split
  · exact kept_creditSlot _ _
  · exact kept_createEntry x y _

theorem kept_interlock (p : Port) (s : State) : Kept s (interlock p s) := by
  refine Kept.foldl (fun t i => ?_) _ s
  unfold interlockSlot
  split
  · exact Kept.refl t
  · split
    · exact kept_confirmSlot i t
    · exact Kept.refl t

theorem kept_wake (k : WakeKind) (p : Port) (s : State) : Kept s (wake k p s) :=
  Kept.of_part (frame_wake k p s) (by decide)

theorem kept_tripEvent (p : Port) (s : State) : Kept s (tripEvent p s) := by
  unfold tripEvent
  refine (kept_wake .trip p s).trans
    ((kept_readLet _).trans ((kept_interlock p _).trans (Kept.trans ?_ (kept_settleSweep _))))
  split
  · exact Kept.refl _
  · exact kept_tripPassed p _

/-! ### Probes -/

theorem kept_expireSlot (i : Fin 32) (s : State) : Kept s (expireSlot i s) := by
  unfold expireSlot
  split
  · exact Kept.refl s
  · next e _ =>
    simp only []
    have k := kept_withdraw (fun l => decide (l.egress = e.egress) && !decide (l.ingress ∈ e.caught)) s
    have c : ∀ t : State, Kept t (clearOpt i t) := fun t => Kept.of_part (frame_clearOpt i t) (by decide)
    split
    · exact k.trans ((kept_listenBook _ _ _).trans (c _))
    · exact k.trans (c _)

theorem kept_expireDue (s : State) : Kept s (expireDue s) :=
  Kept.foldl (fun t i => kept_expireSlot i t) _ _

theorem kept_dealOld (r : Round) (s : State) : Kept s (dealOld r s) :=
  (kept_readOpt s).trans
    ((Kept.of_part (frame_eraseOpt _ _) (by decide)).trans (Kept.foldl (fun t i => kept_expireSlot i t) _ _))

theorem kept_uplinkBook (s : State) : Kept s (uplinkBook s) := by
  unfold uplinkBook
  split
  · refine Kept.foldl (fun t p => ?_) _ s
    split
    · exact kept_listenBook p true t
    · exact Kept.refl t
  · exact Kept.refl s

end Sys2Proof.Machine
end

