-- ==== Sys2Proof/WellFormed.lean ====
section
/-! DEFINITION. Which commands are the step their constructor names.  A command that is not well formed is
no event of the part, and its meaning leaves the state as it is, but for the level of KEY that a request
command carries (log entries 1 and 4). -/

namespace Sys2Proof

/-- A body that LEN can carry (R153). -/
def bodyFits (body : List Byte) : Bool := decide (1 ≤ body.length) && decide (body.length ≤ Config.bodyMax)

/-- Well-formed commands. -/
def Instr.wellFormed : Instr → Bool
  | .powerReset _ => true
  | .pinReset _ => true
  | .settingsStoreLoad => true
  | .startPacingAllowance => true
  | .intervalEvent => true
  | .roundStart => true
  | .probeExpiry => true
  | .throttleHoldExpiry _ => true
  | .holdExpiry _ => true
  | .strikeDecay _ => true
  | .hostLost => true
  | .digest _ _ _ => true
  | .catchRecord _ _ _ _ => true
  | .link _ _ => true
  | .ack _ _ _ => true
  | .framingError bits => decide (1 ≤ bits.length) && decide (bits.length ≤ 63)
  | .unknownRecord w => (decodeRecord w).isNone
  | .ackTimeout => true
  | .setport => true
  | .inject => true
  | .commandLastBit => true
  | .character _ _ => true
  | .gapTimeout => true
  | .checkFail body check => bodyFits body && decide (check ≠ Machine.frameCheck body)
  | .rejectBusy kind fields => bodyFits (kind :: fields)
  | .replyEnd _ => true
  | .unknown kind fields => bodyFits (kind :: fields) && !Machine.namesRequest kind
  | .stat _ fields => bodyFits (0x01 :: fields)
  | .portq fields => bodyFits (0x02 :: fields)
  | .fetch fields => bodyFits (0x03 :: fields)
  | .ackgap fields => bodyFits (0x04 :: fields)
  | .trapclr fields => bodyFits (0x05 :: fields)
  | .mode fields => bodyFits (0x06 :: fields)
  | .lesson fields => bodyFits (0x0A :: fields)
  | .reset fields => bodyFits (0x0F :: fields)
  | .setp fields => bodyFits (0x07 :: fields)
  | .roles _ fields => bodyFits (0x08 :: fields)
  | .ovrd fields => bodyFits (0x09 :: fields)
  | .store _ fields => bodyFits (0x0B :: fields)
  | .watch fields => bodyFits (0x0C :: fields)
  | .extend fields => bodyFits (0x0D :: fields)
  | .unwatch fields => bodyFits (0x0E :: fields)
  | .writeCompletion _ => true
  | .keyFall => true
  | .strobeLastBit => true

end Sys2Proof
end

