-- ==== Sys2Proof/Laws/PerInstr.lean ====
section
/-! SUPPORT. One statement for every command of the table, as syntax: a request command carries the kind byte of
its request, and is well formed exactly when its body fits LEN (R153, R156). -/

namespace Sys2Proof.Laws.Requests

/-- A request command has a kind that names a request, and is well formed when its body fits. -/
def Statement (i : Instr) : Prop :=
  ∀ kind fields, Machine.requestOf i = some (kind, fields) →
    Machine.namesRequest kind = true ∧ i.wellFormed = bodyFits (kind :: fields)

/-- The statement for a command that is no request. -/
theorem of_none {i : Instr} (h : Machine.requestOf i = none) : Statement i := fun kind fields h' => by
  rw [h] at h'; cases h'

/-- The statement for a request with this kind and these fields. -/
theorem of_some {i : Instr} {k : Byte} {f : List Byte} (h : Machine.requestOf i = some (k, f))
    (n : Machine.namesRequest k = true) (w : i.wellFormed = bodyFits (k :: f)) : Statement i :=
  fun kind fields h' => by
    rw [h] at h'; cases h'; exact ⟨n, w⟩

theorem powerReset (baud : Bool) : Statement (.powerReset baud) := of_none rfl
theorem pinReset (baud : Bool) : Statement (.pinReset baud) := of_none rfl
theorem settingsStoreLoad : Statement .settingsStoreLoad := of_none rfl
theorem startPacingAllowance : Statement .startPacingAllowance := of_none rfl
theorem intervalEvent : Statement .intervalEvent := of_none rfl
theorem roundStart : Statement .roundStart := of_none rfl
theorem probeExpiry : Statement .probeExpiry := of_none rfl
theorem throttleHoldExpiry (port : Port) : Statement (.throttleHoldExpiry port) := of_none rfl
theorem holdExpiry (port : Port) : Statement (.holdExpiry port) := of_none rfl
theorem strikeDecay (port : Port) : Statement (.strikeDecay port) := of_none rfl
theorem hostLost : Statement .hostLost := of_none rfl
theorem digest (port : PortField) (stamp : Byte) (f : BitVec 16) :
    Statement (.digest port stamp f) := of_none rfl
theorem catchRecord (ingress egress : PortField) (round : Round) (identity : Identity) :
    Statement (.catchRecord ingress egress round identity) := of_none rfl
theorem link (port : PortField) (up : Bool) : Statement (.link port up) := of_none rfl
theorem ack (port : PortField) (ok : Bool) (up : Bool) : Statement (.ack port ok up) := of_none rfl
theorem framingError (bits : List Bool) : Statement (.framingError bits) := of_none rfl
theorem unknownRecord (record : Record) : Statement (.unknownRecord record) := of_none rfl
theorem ackTimeout : Statement .ackTimeout := of_none rfl
theorem setport : Statement .setport := of_none rfl
theorem inject : Statement .inject := of_none rfl
theorem commandLastBit : Statement .commandLastBit := of_none rfl
theorem character (byte : Byte) (stop : CharacterEnd) :
    Statement (.character byte stop) := of_none rfl
theorem gapTimeout : Statement .gapTimeout := of_none rfl
theorem checkFail (body : List Byte) (check : BitVec 16) : Statement (.checkFail body check) := of_none rfl
theorem rejectBusy (kind : Byte) (fields : List Byte) : Statement (.rejectBusy kind fields) := of_none rfl
theorem replyEnd (baud : Bool) : Statement (.replyEnd baud) := of_none rfl
theorem unknown (kind : Byte) (fields : List Byte) : Statement (.unknown kind fields) := of_none rfl
theorem stat (key : Bool) (fields : List Byte) : Statement (.stat key fields) := of_some rfl rfl rfl
theorem portq (fields : List Byte) : Statement (.portq fields) := of_some rfl rfl rfl
theorem fetch (fields : List Byte) : Statement (.fetch fields) := of_some rfl rfl rfl
theorem ackgap (fields : List Byte) : Statement (.ackgap fields) := of_some rfl rfl rfl
theorem trapclr (fields : List Byte) : Statement (.trapclr fields) := of_some rfl rfl rfl
theorem mode (fields : List Byte) : Statement (.mode fields) := of_some rfl rfl rfl
theorem lesson (fields : List Byte) : Statement (.lesson fields) := of_some rfl rfl rfl
theorem reset (fields : List Byte) : Statement (.reset fields) := of_some rfl rfl rfl
theorem setp (fields : List Byte) : Statement (.setp fields) := of_some rfl rfl rfl
theorem roles (key : Bool) (fields : List Byte) : Statement (.roles key fields) := of_some rfl rfl rfl
theorem ovrd (fields : List Byte) : Statement (.ovrd fields) := of_some rfl rfl rfl
theorem store (key : Bool) (fields : List Byte) : Statement (.store key fields) := of_some rfl rfl rfl
theorem watch (fields : List Byte) : Statement (.watch fields) := of_some rfl rfl rfl
theorem extend (fields : List Byte) : Statement (.extend fields) := of_some rfl rfl rfl
theorem unwatch (fields : List Byte) : Statement (.unwatch fields) := of_some rfl rfl rfl
theorem writeCompletion (took : Bool) : Statement (.writeCompletion took) := of_none rfl
theorem keyFall : Statement .keyFall := of_none rfl
theorem strobeLastBit : Statement .strobeLastBit := of_none rfl

end Sys2Proof.Laws.Requests
end

