-- ==== Sys2Proof/Laws/Queue.lean ====
section
/-! SUPPORT. No operation but a removal by FETCH, a resumption and a reset takes a record out of the report
queue, and every one keeps the queue within its size. -/

namespace Sys2Proof.Machine

/-- Records are only added to the report queue, and the Report Unit keeps fitting. -/
def Appends (s t : State) : Prop :=
  s.reports.queue <+: t.reports.queue ∧ (QueueFits s → QueueFits t)

theorem Appends.refl (s : State) : Appends s s := ⟨List.prefix_rfl, id⟩

theorem Appends.comp {s t u : State} (h : Appends s t) (k : Appends t u) : Appends s u :=
  ⟨h.1.trans k.1, fun f => k.2 (h.2 f)⟩

theorem Appends.foldl {α : Type} {f : State → α → State} (h : ∀ s a, Appends s (f s a)) :
    ∀ (l : List α) (s : State), Appends s (l.foldl f s)
  | [], s => Appends.refl s
  | a :: l, s => (h s a).comp (Appends.foldl h l (f s a))

theorem Appends.of_reports {s t : State} (h : t.reports = s.reports) : Appends s t :=
  ⟨h ▸ List.prefix_rfl, fun f => f.congr h⟩

theorem Appends.of_part {l : List Part} {s t : State} (h : OnlyChanges l s t) (d : Part.reports ∉ l) :
    Appends s t := Appends.of_reports (h .reports d)

theorem appends_set_clock (s : State) (x : IntervalClock) : Appends s { s with clock := x } := Appends.of_reports rfl
theorem appends_set_order (s : State) (x : List Port) : Appends s { s with order := x } := Appends.of_reports rfl
theorem appends_set_meter (s : State) (x : FloodMeter) : Appends s { s with meter := x } := Appends.of_reports rfl
theorem appends_set_probe (s : State) (x : ProbeUnit) : Appends s { s with probe := x } := Appends.of_reports rfl
theorem appends_set_evidence (s : State) (x : EvidenceUnit) : Appends s { s with evidence := x } :=
  Appends.of_reports rfl
theorem appends_set_trap (s : State) (x : Option TrapRecord) : Appends s { s with trap := x } :=
  Appends.of_reports rfl
theorem appends_set_arbiter (s : State) (x : Arbiter) : Appends s { s with arbiter := x } := Appends.of_reports rfl
theorem appends_set_glink (s : State) (x : GuardLink) : Appends s { s with glink := x } := Appends.of_reports rfl
theorem appends_set_mgmt (s : State) (x : ManagementLine) : Appends s { s with mgmt := x } := Appends.of_reports rfl
theorem appends_set_control (s : State) (x : ModeUnit) : Appends s { s with control := x } := Appends.of_reports rfl
theorem appends_set_settings (s : State) (x : SettingsStore) : Appends s { s with settings := x } :=
  Appends.of_reports rfl
theorem appends_set_key (s : State) (x : Bool) : Appends s { s with key := x } := Appends.of_reports rfl
theorem appends_set_channel (s : State) (a : Arbiter) (g : GuardLink) :
    Appends s { s with arbiter := a, glink := g } := Appends.of_reports rfl
theorem appends_set_fault (s : State) (g : GuardLink) (a : Arbiter) (x : ProbeUnit) :
    Appends s { s with glink := g, arbiter := a, probe := x } := Appends.of_reports rfl
theorem appends_set_line (s : State) (m : ManagementLine) (c : ModeUnit) :
    Appends s { s with mgmt := m, control := c } := Appends.of_reports rfl
theorem appends_set_round (s : State) (k : IntervalClock) (x : ProbeUnit) :
    Appends s { s with clock := k, probe := x } := Appends.of_reports rfl
theorem appends_set_store (s : State) (k : Bool) (x : SettingsStore) :
    Appends s { s with key := k, settings := x } := Appends.of_reports rfl

/-- A change of the watch leaves the queue alone. -/
theorem appends_set_watch (s : State) (w : Option Watch) :
    Appends s { s with reports := { s.reports with watch := w } } :=
  ⟨List.prefix_rfl, fun f => ⟨f.size, f.lost, f.clear⟩⟩

theorem appends_report (b : ReportBody) (s : State) : Appends s (report b s) := ⟨report_prefix b s, report_fits b⟩

theorem appends_setPort (p : Port) (r : PortRec) (s : State) : Appends s (s.setPort p r) :=
  Appends.of_part (frame_setPort p r s) (by decide)

theorem appends_modPort (p : Port) (f : PortRec → PortRec) (s : State) : Appends s (s.modPort p f) :=
  Appends.of_part (frame_modPort p f s) (by decide)

theorem appends_mapPorts (f : Port → PortRec → PortRec) (s : State) : Appends s (s.mapPorts f) :=
  Appends.of_part (frame_mapPorts f s) (by decide)

theorem appends_setMode (m : Mode) (c : ModeCause) (s : State) :
    Appends s (setMode m c s) := by
  unfold setMode
  try dsimp only
  repeat' first
    | with_reducible refine Appends.comp ?_ (appends_report _ _)
    | split
    | with_reducible exact Appends.refl _
    | refine Appends.comp ?_ (appends_set_control _ _)

theorem appends_wake (k : WakeKind) (p : Port) (s : State) :
    Appends s (wake k p s) := by
  unfold wake
  try dsimp only
  repeat' first
    | with_reducible refine Appends.comp ?_ (appends_setMode _ _ _)
    | split
    | with_reducible exact Appends.refl _

theorem appends_trapFailure (n : TableName) (i : Nat) (s : State) :
    Appends s (trapFailure n i s) := by
  unfold trapFailure
  try dsimp only
  repeat' first
    | with_reducible refine Appends.comp ?_ (appends_report _ _)
    | split
    | with_reducible exact Appends.refl _
    | refine Appends.comp ?_ (appends_set_trap _ _)

theorem appends_dropOpt (i : Fin 32) (s : State) :
    Appends s (dropOpt i s) := by
  unfold dropOpt
  try dsimp only
  repeat' first
    | with_reducible refine Appends.comp ?_ (appends_trapFailure _ _ _)
    | split
    | with_reducible exact Appends.refl _
    | refine Appends.comp ?_ (appends_set_probe _ _)

theorem appends_dropLet (i : Fin 16) (s : State) :
    Appends s (dropLet i s) := by
  unfold dropLet
  try dsimp only
  repeat' first
    | with_reducible refine Appends.comp ?_ (appends_trapFailure _ _ _)
    | split
    | with_reducible exact Appends.refl _
    | refine Appends.comp ?_ (appends_set_evidence _ _)

theorem appends_readOpt (s : State) :
    Appends s (readOpt s) := by
  unfold readOpt
  try dsimp only
  repeat' first
    | with_reducible refine Appends.comp ?_ (Appends.foldl (fun _ _ => appends_dropOpt _ _) _ _)
    | split
    | with_reducible exact Appends.refl _

theorem appends_readLet (s : State) :
    Appends s (readLet s) := by
  unfold readLet
  try dsimp only
  repeat' first
    | with_reducible refine Appends.comp ?_ (Appends.foldl (fun _ _ => appends_dropLet _ _) _ _)
    | split
    | with_reducible exact Appends.refl _

theorem appends_handTx (r : OutRecord) (s : State) : Appends s (handTx r s) :=
  Appends.of_part (frame_handTx r s) (by decide)

/-! ### The Port Guard -/

theorem appends_moveGuard (p : Port) (g : GuardState) (n k : Nat) (c : StateCause) (s : State) :
    Appends s (moveGuard p g n k c s) := by
  unfold moveGuard
  try dsimp only
  repeat' first
    | with_reducible refine Appends.comp ?_ (appends_report _ _)
    | with_reducible refine Appends.comp ?_ (appends_setPort _ _ _)
    | split
    | with_reducible exact Appends.refl _

theorem appends_goPlain (p : Port) (g : GuardState) (c : StateCause) (s : State) :
    Appends s (goPlain p g c s) := by
  unfold goPlain
  try dsimp only
  repeat' first
    | with_reducible refine Appends.comp ?_ (appends_moveGuard _ _ _ _ _ _)
    | split
    | with_reducible exact Appends.refl _

theorem appends_goThrottle (p : Port) (c : StateCause) (s : State) :
    Appends s (goThrottle p c s) := by
  unfold goThrottle
  try dsimp only
  repeat' first
    | with_reducible refine Appends.comp ?_ (appends_moveGuard _ _ _ _ _ _)
    | split
    | with_reducible exact Appends.refl _

theorem appends_goBlocked (p : Port) (s : State) :
    Appends s (goBlocked p s) := by
  unfold goBlocked
  try dsimp only
  repeat' first
    | with_reducible refine Appends.comp ?_ (appends_moveGuard _ _ _ _ _ _)
    | with_reducible refine Appends.comp ?_ (appends_modPort _ _ _)
    | split
    | with_reducible exact Appends.refl _

theorem appends_evidenceEvent (p : Port) (s : State) :
    Appends s (evidenceEvent p s) := by
  unfold evidenceEvent
  try dsimp only
  repeat' first
    | with_reducible refine Appends.comp ?_ (appends_goPlain _ _ _ _)
    | with_reducible refine Appends.comp ?_ (appends_modPort _ _ _)
    | split
    | with_reducible exact Appends.refl _

theorem appends_evidenceGone (p : Port) (s : State) :
    Appends s (evidenceGone p s) := by
  unfold evidenceGone
  try dsimp only
  repeat' first
    | with_reducible refine Appends.comp ?_ (appends_goPlain _ _ _ _)
    | split
    | with_reducible exact Appends.refl _

theorem appends_confirmEvent (p : Port) (s : State) :
    Appends s (confirmEvent p s) := by
  unfold confirmEvent
  try dsimp only
  repeat' first
    | with_reducible refine Appends.comp ?_ (appends_goBlocked _ _)
    | split
    | with_reducible exact Appends.refl _

theorem appends_tripPassed (p : Port) (s : State) :
    Appends s (tripPassed p s) := by
  unfold tripPassed
  try dsimp only
  repeat' first
    | with_reducible refine Appends.comp ?_ (appends_goThrottle _ _ _)
    | with_reducible refine Appends.comp ?_ (appends_modPort _ _ _)
    | split
    | with_reducible exact Appends.refl _

theorem appends_leaveListen (p : Port) (s : State) :
    Appends s (leaveListen p s) := by
  unfold leaveListen
  try dsimp only
  repeat' first
    | with_reducible refine Appends.comp ?_ (appends_goThrottle _ _ _)
    | with_reducible refine Appends.comp ?_ (appends_goPlain _ _ _ _)
    | split
    | with_reducible exact Appends.refl _

theorem appends_listenJudge (p : Port) (c : Bool) (s : State) :
    Appends s (listenJudge p c s) := by
  unfold listenJudge
  try dsimp only
  repeat' first
    | with_reducible refine Appends.comp ?_ (appends_leaveListen _ _)
    | with_reducible refine Appends.comp ?_ (appends_modPort _ _ _)
    | split
    | with_reducible exact Appends.refl _

theorem appends_evidenceGoneCheck (v : Port → Bool) (s : State) :
    Appends s (evidenceGoneCheck v s) := by
  unfold evidenceGoneCheck
  try dsimp only
  repeat' first
    | with_reducible refine Appends.comp ?_ (Appends.foldl (fun _ _ => appends_evidenceGone _ _) _ _)
    | split
    | with_reducible exact Appends.refl _

theorem appends_settleSweep (s : State) :
    Appends s (settleSweep s) := by
  unfold settleSweep
  try dsimp only
  repeat' first
    | with_reducible refine Appends.comp ?_ (Appends.foldl (fun _ _ => appends_evidenceGone _ _) _ _)
    | with_reducible refine Appends.comp ?_ (appends_readLet _)
    | split
    | with_reducible exact Appends.refl _
    | refine Appends.comp ?_ (appends_set_evidence _ _)

theorem appends_eraseLet (c : LetEntry → Bool) (s : State) : Appends s (eraseLet c s) :=
  Appends.of_part (frame_eraseLet c s) (by decide)

theorem appends_withdraw (c : LetEntry → Bool) (s : State) :
    Appends s (withdraw c s) := by
  unfold withdraw
  dsimp only
  refine Appends.comp ?_ (appends_settleSweep _)
  refine Appends.comp ?_ (appends_evidenceGoneCheck _ _)
  refine Appends.comp ?_ (appends_eraseLet _ _)
  refine Appends.comp ?_ (appends_readLet _)
  exact Appends.refl _

theorem appends_leaveThrottle (p : Port) (s : State) :
    Appends s (leaveThrottle p s) := by
  unfold leaveThrottle
  try dsimp only
  repeat' first
    | with_reducible refine Appends.comp ?_ (appends_settleSweep _)
    | with_reducible refine Appends.comp ?_ (appends_goPlain _ _ _ _)
    | with_reducible refine Appends.comp ?_ (appends_readLet _)
    | split
    | with_reducible exact Appends.refl _

theorem appends_clearEvent (p : Port) (s : State) :
    Appends s (clearEvent p s) := by
  unfold clearEvent
  try dsimp only
  repeat' first
    | with_reducible refine Appends.comp ?_ (appends_leaveThrottle _ _)
    | split
    | with_reducible exact Appends.refl _

theorem appends_throttleEnds (p : Port) (s : State) :
    Appends s (throttleEnds p s) := by
  unfold throttleEnds
  try dsimp only
  repeat' first
    | with_reducible refine Appends.comp ?_ (appends_leaveThrottle _ _)
    | with_reducible refine Appends.comp ?_ (appends_modPort _ _ _)
    | split
    | with_reducible exact Appends.refl _

theorem appends_holdEnds (p : Port) (s : State) :
    Appends s (holdEnds p s) := by
  unfold holdEnds
  try dsimp only
  repeat' first
    | with_reducible refine Appends.comp ?_ (appends_settleSweep _)
    | with_reducible refine Appends.comp ?_ (appends_goPlain _ _ _ _)
    | with_reducible refine Appends.comp ?_ (appends_readLet _)
    | with_reducible refine Appends.comp ?_ (appends_modPort _ _ _)
    | split
    | with_reducible exact Appends.refl _

theorem appends_decayEnds (p : Port) (s : State) : Appends s (decayEnds p s) :=
  Appends.of_part (frame_decayEnds p s) (by decide)

theorem appends_listenBook (p : Port) (q : Bool) (s : State) :
    Appends s (listenBook p q s) := by
  unfold listenBook
  try dsimp only
  repeat' first
    | with_reducible refine Appends.comp ?_ (appends_settleSweep _)
    | with_reducible refine Appends.comp ?_ (appends_listenJudge _ _ _)
    | with_reducible refine Appends.comp ?_ (appends_readLet _)
    | split
    | with_reducible exact Appends.refl _

/-! ### The Evidence Unit -/

theorem appends_writeLet (i : Fin 16) (e : LetEntry) (s : State) : Appends s (writeLet i e s) :=
  Appends.of_part (frame_writeLet i e s) (by decide)

theorem appends_confirmEffects (e : LetEntry) (b : Bool) (s : State) :
    Appends s (confirmEffects e b s) := by
  unfold confirmEffects
  try dsimp only
  repeat' first
    | with_reducible refine Appends.comp ?_ (appends_report _ _)
    | with_reducible refine Appends.comp ?_ (appends_confirmEvent _ _)
    | split
    | with_reducible exact Appends.refl _

theorem appends_confirmSlot (i : Fin 16) (s : State) :
    Appends s (confirmSlot i s) := by
  unfold confirmSlot
  try dsimp only
  repeat' first
    | with_reducible refine Appends.comp ?_ (appends_confirmEffects _ _ _)
    | with_reducible refine Appends.comp ?_ (appends_writeLet _ _ _)
    | split
    | with_reducible exact Appends.refl _

theorem appends_confirmCheck (i : Fin 16) (s : State) :
    Appends s (confirmCheck i s) := by
  unfold confirmCheck
  try dsimp only
  repeat' first
    | with_reducible refine Appends.comp ?_ (appends_confirmSlot _ _)
    | split
    | with_reducible exact Appends.refl _

theorem appends_evictedGone (v : Option Port) (s : State) :
    Appends s (evictedGone v s) := by
  unfold evictedGone
  try dsimp only
  repeat' first
    | with_reducible refine Appends.comp ?_ (appends_evidenceGone _ _)
    | split
    | with_reducible exact Appends.refl _

theorem appends_newVictimEvidence (v : Option Port) (s : State) :
    Appends s (newVictimEvidence v s) := by
  unfold newVictimEvidence
  try dsimp only
  repeat' first
    | with_reducible refine Appends.comp ?_ (appends_evidenceEvent _ _)
    | split
    | with_reducible exact Appends.refl _

theorem appends_createIn (i : Fin 16) (x y : Port) (v : Option Port) (s : State) :
    Appends s (createIn i x y v s) := by
  unfold createIn
  try dsimp only
  repeat' first
    | with_reducible refine Appends.comp ?_ (appends_confirmCheck _ _)
    | with_reducible refine Appends.comp ?_ (appends_newVictimEvidence _ _)
    | with_reducible refine Appends.comp ?_ (appends_evictedGone _ _)
    | with_reducible refine Appends.comp ?_ (appends_writeLet _ _ _)
    | split
    | with_reducible exact Appends.refl _

theorem appends_createEntry (x y : Port) (s : State) :
    Appends s (createEntry x y s) := by
  unfold createEntry
  try dsimp only
  repeat' first
    | with_reducible refine Appends.comp ?_ (appends_createIn _ _ _ _ _)
    | split
    | with_reducible exact Appends.refl _
    | refine Appends.comp ?_ (appends_set_evidence _ _)

theorem appends_creditSlot (i : Fin 16) (s : State) :
    Appends s (creditSlot i s) := by
  unfold creditSlot
  try dsimp only
  repeat' first
    | with_reducible refine Appends.comp ?_ (appends_confirmCheck _ _)
    | with_reducible refine Appends.comp ?_ (appends_writeLet _ _ _)
    | split
    | with_reducible exact Appends.refl _

theorem appends_sighting (x y : Port) (s : State) :
    Appends s (sighting x y s) := by
  unfold sighting
  try dsimp only
  repeat' first
    | with_reducible refine Appends.comp ?_ (appends_settleSweep _)
    | with_reducible refine Appends.comp ?_ (appends_creditSlot _ _)
    | with_reducible refine Appends.comp ?_ (appends_createEntry _ _ _)
    | with_reducible refine Appends.comp ?_ (appends_readLet _)
    | split
    | with_reducible exact Appends.refl _

theorem appends_interlockSlot (p : Port) (i : Fin 16) (s : State) :
    Appends s (interlockSlot p i s) := by
  unfold interlockSlot
  try dsimp only
  repeat' first
    | with_reducible refine Appends.comp ?_ (appends_confirmSlot _ _)
    | split
    | with_reducible exact Appends.refl _

theorem appends_interlock (p : Port) (s : State) :
    Appends s (interlock p s) := by
  unfold interlock
  try dsimp only
  repeat' first
    | with_reducible refine Appends.comp ?_ (Appends.foldl (fun _ _ => appends_interlockSlot _ _ _) _ _)
    | split
    | with_reducible exact Appends.refl _

theorem appends_tripEvent (p : Port) (s : State) :
    Appends s (tripEvent p s) := by
  unfold tripEvent
  dsimp only
  refine Appends.comp ?_ (appends_settleSweep _)
  split
  · refine Appends.comp ?_ (appends_interlock _ _)
    refine Appends.comp ?_ (appends_readLet _)
    refine Appends.comp ?_ (appends_wake _ _ _)
    exact Appends.refl _
  · refine Appends.comp ?_ (appends_tripPassed _ _)
    refine Appends.comp ?_ (appends_interlock _ _)
    refine Appends.comp ?_ (appends_readLet _)
    refine Appends.comp ?_ (appends_wake _ _ _)
    exact Appends.refl _

/-! ### The Flood Meter and the watch -/

theorem appends_watchEmptied (w : Watch) (s : State) :
    Appends s (watchEmptied w s) := by
  unfold watchEmptied
  try dsimp only
  repeat' first
    | with_reducible refine Appends.comp ?_ (appends_report _ _)
    | split
    | with_reducible exact Appends.refl _
    | refine Appends.comp ?_ (appends_set_watch _ _)

theorem appends_watchCount (w : Watch) (s : State) :
    Appends s (watchCount w s) := by
  unfold watchCount
  try dsimp only
  repeat' first
    | with_reducible refine Appends.comp ?_ (appends_watchEmptied _ _)
    | split
    | with_reducible exact Appends.refl _
    | refine Appends.comp ?_ (appends_set_watch _ _)

theorem appends_samplePoint (w : Watch) (r : PortRec) (s : State) :
    Appends s (samplePoint w r s) := by
  unfold samplePoint
  try dsimp only
  repeat' first
    | with_reducible refine Appends.comp ?_ (appends_watchCount _ _)
    | with_reducible refine Appends.comp ?_ (appends_report _ _)
    | split
    | with_reducible exact Appends.refl _

theorem appends_watchDigest (p : Port) (r : PortRec) (s : State) :
    Appends s (watchDigest p r s) := by
  unfold watchDigest
  try dsimp only
  repeat' first
    | with_reducible refine Appends.comp ?_ (appends_samplePoint _ _ _)
    | split
    | with_reducible exact Appends.refl _
    | refine Appends.comp ?_ (appends_set_watch _ _)

theorem appends_takeDigest (p : Port) (n : Nat) (s : State) :
    Appends s (takeDigest p n s) := by
  unfold takeDigest
  dsimp only
  refine Appends.comp ?_ (appends_watchDigest _ _ _)
  split
  · refine Appends.comp ?_ (appends_tripEvent _ _)
    refine Appends.comp ?_ (appends_setPort _ _ _)
    exact Appends.refl _
  · split
    · refine Appends.comp ?_ (appends_clearEvent _ _)
      refine Appends.comp ?_ (appends_setPort _ _ _)
      exact Appends.refl _
    · refine Appends.comp ?_ (appends_setPort _ _ _)
      exact Appends.refl _

theorem appends_lateDigest (s : State) : Appends s (lateDigest s) :=
  Appends.of_part (frame_lateDigest s) (by decide)

theorem appends_digestAtMeter (p : Port) (b : Byte) (n : Nat) (s : State) :
    Appends s (digestAtMeter p b n s) := by
  unfold digestAtMeter
  try dsimp only
  repeat' first
    | with_reducible refine Appends.comp ?_ (appends_lateDigest _)
    | with_reducible refine Appends.comp ?_ (appends_takeDigest _ _ _)
    | split
    | with_reducible exact Appends.refl _

theorem appends_meterInterval (s : State) : Appends s (meterInterval s) :=
  Appends.of_part (frame_meterInterval s) (by decide)

/-! ### The Probe Unit -/

theorem appends_writeOpt (i : Fin 32) (e : OptEntry) (s : State) : Appends s (writeOpt i e s) :=
  Appends.of_part (frame_writeOpt i e s) (by decide)

theorem appends_clearOpt (i : Fin 32) (s : State) : Appends s (clearOpt i s) :=
  Appends.of_part (frame_clearOpt i s) (by decide)

theorem appends_eraseOpt (c : OptEntry → Bool) (s : State) : Appends s (eraseOpt c s) :=
  Appends.of_part (frame_eraseOpt c s) (by decide)

theorem appends_skipProbe (s : State) : Appends s (skipProbe s) :=
  Appends.of_part (frame_skipProbe s) (by decide)

theorem appends_lateCatch (s : State) : Appends s (lateCatch s) :=
  Appends.of_part (frame_lateCatch s) (by decide)

theorem appends_dropProbe (p : Port) (s : State) : Appends s (dropProbe p s) :=
  Appends.of_part (frame_dropProbe p s) (by decide)

theorem appends_catchFound (i : Fin 32) (y : Port) (s : State) :
    Appends s (catchFound i y s) := by
  unfold catchFound
  try dsimp only
  repeat' first
    | with_reducible refine Appends.comp ?_ (appends_sighting _ _ _)
    | with_reducible refine Appends.comp ?_ (appends_writeOpt _ _ _)
    | with_reducible refine Appends.comp ?_ (appends_wake _ _ _)
    | split
    | with_reducible exact Appends.refl _

theorem appends_catchOn (x y : Port) (r : Round) (s : State) :
    Appends s (catchOn x y r s) := by
  unfold catchOn
  try dsimp only
  repeat' first
    | with_reducible refine Appends.comp ?_ (appends_catchFound _ _ _)
    | with_reducible refine Appends.comp ?_ (appends_lateCatch _)
    | with_reducible refine Appends.comp ?_ (appends_readOpt _)
    | split
    | with_reducible exact Appends.refl _

theorem appends_catchAtProbe (y x : PortField) (r : Round) (d : Identity) (s : State) :
    Appends s (catchAtProbe y x r d s) := by
  unfold catchAtProbe
  try dsimp only
  repeat' first
    | with_reducible refine Appends.comp ?_ (appends_catchOn _ _ _ _)
    | split
    | with_reducible exact Appends.refl _
    | refine Appends.comp ?_ (appends_set_probe _ _)

theorem appends_probeAcked (r : Round) (x : Port) (s : State) :
    Appends s (probeAcked r x s) := by
  unfold probeAcked
  try dsimp only
  repeat' first
    | with_reducible refine Appends.comp ?_ (appends_writeOpt _ _ _)
    | with_reducible refine Appends.comp ?_ (appends_readOpt _)
    | split
    | with_reducible exact Appends.refl _

theorem appends_probeEnded (r : Round) (x : Port) (s : State) :
    Appends s (probeEnded r x s) := by
  unfold probeEnded
  try dsimp only
  repeat' first
    | with_reducible refine Appends.comp ?_ (appends_skipProbe _)
    | with_reducible refine Appends.comp ?_ (appends_clearOpt _ _)
    | with_reducible refine Appends.comp ?_ (appends_readOpt _)
    | split
    | with_reducible exact Appends.refl _

theorem appends_expireSlot (i : Fin 32) (s : State) :
    Appends s (expireSlot i s) := by
  unfold expireSlot
  split
  · exact Appends.refl _
  · next e _ =>
    dsimp only
    refine Appends.comp ?_ (appends_clearOpt _ _)
    split
    · refine Appends.comp ?_ (appends_listenBook _ _ _)
      refine Appends.comp ?_ (appends_withdraw _ _)
      exact Appends.refl _
    · refine Appends.comp ?_ (appends_withdraw _ _)
      exact Appends.refl _

theorem appends_expireDue (s : State) :
    Appends s (expireDue s) := by
  unfold expireDue
  try dsimp only
  repeat' first
    | with_reducible refine Appends.comp ?_ (Appends.foldl (fun _ _ => appends_expireSlot _ _) _ _)
    | with_reducible exact Appends.refl _

theorem appends_dealOld (r : Round) (s : State) :
    Appends s (dealOld r s) := by
  unfold dealOld
  dsimp only
  refine Appends.comp ?_ (Appends.foldl (fun _ _ => appends_expireSlot _ _) _ _)
  refine Appends.comp ?_ (appends_eraseOpt _ _)
  refine Appends.comp ?_ (appends_readOpt _)
  exact Appends.refl _

theorem appends_roundSteps (s : State) :
    Appends s (roundSteps s) := by
  unfold roundSteps
  dsimp only
  refine Appends.comp ?_ (appends_set_probe _ _)
  refine Appends.comp ?_ (appends_dealOld _ _)
  refine Appends.comp ?_ (appends_set_round _ _ _)
  exact Appends.refl _

theorem appends_uplinkBook (s : State) :
    Appends s (uplinkBook s) := by
  unfold uplinkBook
  split
  · refine Appends.foldl (fun t p => ?_) _ s
    split
    · exact appends_listenBook _ _ _
    · exact Appends.refl _
  · exact Appends.refl _

theorem appends_removeProbes (p : Port) (s : State) :
    Appends s (removeProbes p s) := by
  unfold removeProbes
  refine Appends.comp ?_ (appends_eraseOpt _ _)
  refine Appends.comp ?_ (appends_readOpt _)
  exact Appends.refl _

/-! ### The Port Table -/

theorem appends_linkUpEvent (p : Port) (s : State) :
    Appends s (linkUpEvent p s) := by
  unfold linkUpEvent
  try dsimp only
  repeat' first
    | with_reducible refine Appends.comp ?_ (appends_goPlain _ _ _ _)
    | with_reducible refine Appends.comp ?_ (appends_modPort _ _ _)
    | with_reducible refine Appends.comp ?_ (appends_wake _ _ _)
    | split
    | with_reducible exact Appends.refl _
    | refine Appends.comp ?_ (appends_set_order _ _)

theorem appends_linkDownTo (g : GuardState) (c : StateCause) (p : Port) (s : State) :
    Appends s (linkDownTo g c p s) := by
  unfold linkDownTo
  dsimp only
  refine Appends.comp ?_ (appends_withdraw _ _)
  refine Appends.comp ?_ (appends_dropProbe _ _)
  refine Appends.comp ?_ (appends_removeProbes _ _)
  refine Appends.comp ?_ (appends_modPort _ _ _)
  split
  · refine Appends.comp ?_ (appends_set_order _ _)
    refine Appends.comp ?_ (appends_modPort _ _ _)
    exact Appends.refl _
  · refine Appends.comp ?_ (appends_goPlain _ _ _ _)
    refine Appends.comp ?_ (appends_set_order _ _)
    refine Appends.comp ?_ (appends_modPort _ _ _)
    exact Appends.refl _

theorem appends_linkDownEvent (p : Port) (s : State) :
    Appends s (linkDownEvent p s) := by
  unfold linkDownEvent
  refine Appends.comp ?_ (appends_linkDownTo _ _ _ _)
  exact Appends.refl _

theorem appends_linkReport (p : Port) (up : Bool) (s : State) :
    Appends s (linkReport p up s) := by
  unfold linkReport
  split
  · split
    · refine Appends.comp ?_ (appends_linkUpEvent _ _)
      exact Appends.refl _
    · refine Appends.comp ?_ (appends_linkDownEvent _ _)
      exact Appends.refl _
  · exact Appends.refl _

theorem appends_absence (p : Port) (s : State) :
    Appends s (absence p s) := by
  unfold absence
  dsimp only
  split
  · refine Appends.comp ?_ (appends_linkDownTo _ _ _ _)
    refine Appends.comp ?_ (appends_modPort _ _ _)
    exact Appends.refl _
  · split
    · refine Appends.comp ?_ (appends_modPort _ _ _)
      exact Appends.refl _
    · refine Appends.comp ?_ (appends_goPlain _ _ _ _)
      refine Appends.comp ?_ (appends_modPort _ _ _)
      exact Appends.refl _

theorem appends_roleStep1 (n : Role) (p : Port) (s : State) :
    Appends s (roleStep1 n p s) := by
  unfold roleStep1
  try dsimp only
  repeat' first
    | with_reducible refine Appends.comp ?_ (appends_goPlain _ _ _ _)
    | with_reducible refine Appends.comp ?_ (appends_modPort _ _ _)
    | split
    | with_reducible exact Appends.refl _

theorem appends_roleStep2 (o n : Role) (p : Port) (s : State) :
    Appends s (roleStep2 o n p s) := by
  unfold roleStep2
  dsimp only
  refine Appends.comp ?_ (appends_modPort _ _ _)
  refine Appends.comp ?_ (appends_modPort _ _ _)
  split
  · refine Appends.comp ?_ (appends_dropProbe _ _)
    refine Appends.comp ?_ (appends_removeProbes _ _)
    refine Appends.comp ?_ (appends_withdraw _ _)
    exact Appends.refl _
  · refine Appends.comp ?_ (appends_removeProbes _ _)
    refine Appends.comp ?_ (appends_withdraw _ _)
    exact Appends.refl _

theorem appends_roleChange (r : Port → Role) (s : State) :
    Appends s (roleChange r s) := by
  unfold roleChange
  refine Appends.comp ?_ (Appends.foldl (fun _ _ => appends_roleStep2 _ _ _ _) _ _)
  refine Appends.comp ?_ (Appends.foldl (fun _ _ => appends_roleStep1 _ _ _) _ _)
  exact Appends.refl _

theorem appends_applyPolicy (q : Policy) (s : State) : Appends s (applyPolicy q s) :=
  Appends.of_part (frame_applyPolicy q s) (by decide)

/-! ### The Command Arbiter and the Guard Link Interface -/

theorem appends_grantSetport (p : Port) (s : State) : Appends s (grantSetport p s) :=
  Appends.of_part (frame_grantSetport p s) (by decide)

theorem appends_grantProbe (p : Port) (s : State) : Appends s (grantProbe p s) :=
  Appends.of_part (frame_grantProbe p s) (by decide)

theorem appends_commandSent (s : State) : Appends s (commandSent s) :=
  Appends.of_part (frame_commandSent s) (by decide)

theorem appends_strobeSent (s : State) : Appends s (strobeSent s) :=
  Appends.of_part (frame_strobeSent s) (by decide)

theorem appends_endCommand (s : State) : Appends s (endCommand s) :=
  Appends.of_part (frame_endCommand s) (by decide)

theorem appends_ackSeen (s : State) : Appends s (ackSeen s) :=
  Appends.of_part (frame_ackSeen s) (by decide)

theorem appends_setportConfirmed (p : Port) (s : State) : Appends s (setportConfirmed p s) :=
  Appends.of_part (frame_setportConfirmed p s) (by decide)

theorem appends_leaveSweep (p : Port) (s : State) : Appends s (leaveSweep p s) :=
  Appends.of_part (frame_leaveSweep p s) (by decide)

theorem appends_setportTimedOut (p q : Port) (s : State) : Appends s (setportTimedOut p q s) :=
  Appends.of_part (frame_setportTimedOut p q s) (by decide)

theorem appends_linkFails (p : Port) (k : CommandKind) (s : State) :
    Appends s (linkFails p k s) := by
  unfold linkFails
  dsimp only
  refine Appends.comp ?_ (appends_set_fault _ _ _ _)
  refine Appends.comp ?_ (appends_mapPorts _ _)
  refine Appends.comp ?_ (appends_report _ _)
  exact Appends.refl _

theorem appends_countTimeout (s : State) : Appends s (countTimeout s) :=
  Appends.of_part (frame_countTimeout s) (by decide)

theorem appends_judgeLink (p : Port) (k : CommandKind) (s : State) :
    Appends s (judgeLink p k s) := by
  unfold judgeLink
  split
  · refine Appends.comp ?_ (appends_linkFails _ _ _)
    exact Appends.refl _
  · exact Appends.refl _

theorem appends_commandTimeout (o : Outstanding) (s : State) :
    Appends s (commandTimeout o s) := by
  unfold commandTimeout
  try dsimp only
  repeat' first
    | with_reducible refine Appends.comp ?_ (appends_judgeLink _ _ _)
    | with_reducible refine Appends.comp ?_ (appends_countTimeout _)
    | with_reducible refine Appends.comp ?_ (appends_setportTimedOut _ _ _)
    | with_reducible refine Appends.comp ?_ (appends_probeEnded _ _ _)
    | with_reducible refine Appends.comp ?_ (appends_endCommand _)
    | split
    | with_reducible exact Appends.refl _
    | refine Appends.comp ?_ (appends_set_glink _ _)

theorem appends_linkReturns (f : PortField) (k : InboundKind) (s : State) :
    Appends s (linkReturns f k s) := by
  unfold linkReturns
  try dsimp only
  repeat' first
    | with_reducible refine Appends.comp ?_ (appends_report _ _)
    | split
    | with_reducible exact Appends.refl _
    | refine Appends.comp ?_ (appends_set_channel _ _ _)

/-! ### The Mode Unit and the Settings Store -/

theorem appends_clearOverrides (s : State) : Appends s (clearOverrides s) :=
  Appends.of_part (frame_clearOverrides s) (by decide)

theorem appends_enterAutonomous (c : ModeCause) (s : State) :
    Appends s (enterAutonomous c s) := by
  unfold enterAutonomous
  dsimp only
  refine Appends.comp ?_ (appends_roleChange _ _)
  refine Appends.comp ?_ (appends_applyPolicy _ _)
  refine Appends.comp ?_ (appends_clearOverrides _)
  refine Appends.comp ?_ (appends_setMode _ _ _)
  exact Appends.refl _

theorem appends_startDone (s : State) :
    Appends s (startDone s) := by
  unfold startDone
  dsimp only
  refine Appends.comp ?_ (appends_roundSteps _)
  refine Appends.comp ?_ (appends_handTx _ _)
  refine Appends.comp ?_ (appends_set_clock _ _)
  split
  · refine Appends.comp ?_ (appends_setMode _ _ _)
    exact Appends.refl _
  · refine Appends.comp ?_ (appends_enterAutonomous _ _)
    exact Appends.refl _

theorem appends_hostLostEnds (s : State) :
    Appends s (hostLostEnds s) := by
  unfold hostLostEnds
  try dsimp only
  repeat' first
    | with_reducible refine Appends.comp ?_ (appends_enterAutonomous _ _)
    | split
    | with_reducible exact Appends.refl _

theorem appends_loadDone (s : State) : Appends s (loadDone s) :=
  Appends.of_part (frame_loadDone s) (by decide)

theorem appends_startWrite (a : AreaName) (s : State) : Appends s (startWrite a s) :=
  Appends.of_part (frame_startWrite a s) (by decide)

theorem appends_writeEnds (b : Bool) (s : State) :
    Appends s (writeEnds b s) := by
  unfold writeEnds
  try dsimp only
  repeat' first
    | with_reducible refine Appends.comp ?_ (appends_report _ _)
    | split
    | with_reducible exact Appends.refl _
    | refine Appends.comp ?_ (appends_set_settings _ _)

theorem appends_keyFalls (s : State) :
    Appends s (keyFalls s) := by
  unfold keyFalls
  try dsimp only
  repeat' first
    | with_reducible refine Appends.comp ?_ (appends_report _ _)
    | split
    | with_reducible exact Appends.refl _
    | refine Appends.comp ?_ (appends_set_store _ _ _)

theorem appends_sampleKey (b : Bool) (s : State) :
    Appends s (sampleKey b s) := by
  unfold sampleKey
  try dsimp only
  repeat' first
    | with_reducible refine Appends.comp ?_ (appends_keyFalls _)
    | split
    | with_reducible exact Appends.refl _
    | refine Appends.comp ?_ (appends_set_key _ _)

/-! ### The interval -/

theorem appends_takeRound (s : State) :
    Appends s (takeRound s) := by
  unfold takeRound
  split
  · refine Appends.comp ?_ (appends_uplinkBook _)
    refine Appends.comp ?_ (appends_roundSteps _)
    exact Appends.refl _
  · exact Appends.refl _

theorem appends_portEnds (p : Port) (s : State) :
    Appends s (portEnds p s) := by
  unfold portEnds
  try dsimp only
  repeat' first
    | with_reducible refine Appends.comp ?_ (appends_decayEnds _ _)
    | with_reducible refine Appends.comp ?_ (appends_holdEnds _ _)
    | with_reducible refine Appends.comp ?_ (appends_throttleEnds _ _)
    | split
    | with_reducible exact Appends.refl _

theorem appends_lowerPortsEnd (p : Port) (s : State) :
    Appends s (lowerPortsEnd p s) := by
  unfold lowerPortsEnd
  try dsimp only
  repeat' first
    | with_reducible refine Appends.comp ?_ (Appends.foldl (fun _ _ => appends_portEnds _ _) _ _)
    | split
    | with_reducible exact Appends.refl _

theorem appends_strobesSent (s : State) : Appends s (strobesSent s) :=
  Appends.of_part (frame_strobesSent s) (by decide)

theorem appends_settleInterval (s : State) :
    Appends s (settleInterval s) := by
  unfold settleInterval
  dsimp only
  refine Appends.comp ?_ (appends_strobesSent _)
  refine Appends.comp ?_ (appends_hostLostEnds _)
  refine Appends.comp ?_ (Appends.foldl (fun _ _ => appends_portEnds _ _) _ _)
  refine Appends.comp ?_ (appends_takeRound _)
  refine Appends.comp ?_ (appends_expireDue _)
  exact Appends.refl _

theorem appends_clockTick (s : State) : Appends s (clockTick s) :=
  Appends.of_part (frame_clockTick s) (by decide)

theorem appends_paceTick (s : State) : Appends s (paceTick s) :=
  Appends.of_part (frame_paceTick s) (by decide)

theorem appends_hostTick (s : State) : Appends s (hostTick s) :=
  Appends.of_part (frame_hostTick s) (by decide)

theorem appends_intervalTick (s : State) :
    Appends s (intervalTick s) := by
  unfold intervalTick
  dsimp only
  refine Appends.comp ?_ (appends_hostTick _)
  refine Appends.comp ?_ (appends_mapPorts _ _)
  refine Appends.comp ?_ (appends_readOpt _)
  refine Appends.comp ?_ (appends_paceTick _)
  refine Appends.comp ?_ (appends_handTx _ _)
  refine Appends.comp ?_ (appends_meterInterval _)
  refine Appends.comp ?_ (appends_clockTick _)
  exact Appends.refl _

/-! ### The Management Line Interface -/

theorem appends_oweReject (r : Reject) (s : State) : Appends s (oweReject r s) :=
  Appends.of_part (frame_oweReject r s) (by decide)

theorem appends_frameTruncated (s : State) : Appends s (frameTruncated s) :=
  Appends.of_part (frame_frameTruncated s) (by decide)

theorem appends_frameCheckFails (s : State) : Appends s (frameCheckFails s) :=
  Appends.of_part (frame_frameCheckFails s) (by decide)

theorem appends_frameBusy (k : Byte) (s : State) : Appends s (frameBusy k s) :=
  Appends.of_part (frame_frameBusy k s) (by decide)

theorem appends_takeFrame (b : List Byte) (s : State) :
    Appends s (takeFrame b s) := by
  unfold takeFrame
  try dsimp only
  repeat' first
    | with_reducible refine Appends.comp ?_ (appends_hostLostEnds _)
    | split
    | with_reducible exact Appends.refl _
    | refine Appends.comp ?_ (appends_set_line _ _ _)

theorem appends_receiveChar (b : Byte) (x : Bool) (s : State) : Appends s (receiveChar b x s) :=
  Appends.of_part (frame_receiveChar b x s) (by decide)

theorem appends_replyEnds (s : State) : Appends s (replyEnds s) :=
  Appends.of_part (frame_replyEnds s) (by decide)

end Sys2Proof.Machine
end

