-- ==== Sys2Proof/Laws/Reads.lean ====
section
/-! SUPPORT. What the port codes, the checked reads and the searches of the two tables answer. -/

namespace Sys2Proof.Machine

/-! ### Ports in records and requests -/

theorem portOf_portField (p : Port) : portOf (portField p) = some p := by revert p; decide

theorem portOfByte_portByte (p : Port) : portOfByte (portByte p) = some p := by revert p; decide

theorem portField_inj {p q : Port} (h : portField p = portField q) : p = q := by
  have := congrArg portOf h
  rwa [portOf_portField, portOf_portField, Option.some.injEq] at this

theorem portOf_none {f : PortField} (h : 28 ≤ f.toNat) : portOf f = none := by
  unfold portOf; rw [dif_neg (Nat.not_lt.mpr h)]

theorem portOf_some {f : PortField} (h : f.toNat < 28) : portOf f = some ⟨f.toNat, h⟩ := by
  unfold portOf; rw [dif_pos h]

theorem portOfByte_none {b : Byte} (h : 27 < b.toNat) : portOfByte b = none := by
  unfold portOfByte; rw [dif_neg (Nat.not_lt.mpr h)]

theorem portOfByte_some {b : Byte} (h : b.toNat ≤ 27) :
    portOfByte b = some ⟨b.toNat, Nat.lt_succ_of_le h⟩ := by
  unfold portOfByte; rw [dif_pos (Nat.lt_succ_of_le h)]

theorem mem_allPorts (p : Port) : p ∈ allPorts := List.mem_finRange p

/-! ### Port records -/

theorem setPort_self (s : State) (p : Port) : s.setPort p (s.port p) = s := by
  have h : s.ports.set p.val (s.port p) p.isLt = s.ports := by
    apply Vector.ext
    intro i hi
    rw [Vector.getElem_set]
    split
    · next e => subst e; rfl
    · rfl
  simp only [State.setPort, h]

theorem modPort_same (s : State) (p : Port) (f : PortRec → PortRec) (h : f (s.port p) = s.port p) :
    s.modPort p f = s := by rw [State.modPort, h, setPort_self]

theorem setPort_setPort (s : State) (p : Port) (a b : PortRec) : (s.setPort p a).setPort p b = s.setPort p b := by
  simp only [State.setPort, Vector.set_set]

/-- Two states that agree on every port and every other part are equal. -/
theorem State.eq_of_ports {s t : State} (h : ∀ p, t.port p = s.port p) : t = { t with ports := s.ports } := by
  have : t.ports = s.ports := by
    apply Vector.ext
    intro i hi
    exact h ⟨i, hi⟩
  rw [← this]

/-! ### The checked reads -/

theorem readOpt_sound {s : State} (h : OptSound s) : readOpt s = s := by
  unfold readOpt
  have : ((List.finRange 32).filter fun i => optFails (s.probe.opt.get i)) = [] := by
    rw [List.filter_eq_nil_iff]
    intro i _
    unfold optFails
    split
    · next x hx => simp [h i x hx]
    · simp
  rw [this]; rfl

theorem readLet_sound {s : State} (h : LetSound s) : readLet s = s := by
  unfold readLet
  have : ((List.finRange 16).filter fun i => letFails (s.evidence.slots.get i)) = [] := by
    rw [List.filter_eq_nil_iff]
    intro i _
    unfold letFails
    split
    · next x hx => simp [h.2 i x hx]
    · simp
  rw [this]; rfl

theorem settleSweep_clear {s : State} (h : s.evidence.sweepOwed = false) : settleSweep s = s := by
  unfold settleSweep; rw [h]; rfl

theorem LetSound.congr {s t : State} (h : LetSound s) (e : t.evidence = s.evidence) : LetSound t := by
  unfold LetSound at *; rw [e]; exact h

theorem OptSound.congr {s t : State} (h : OptSound s) (e : t.probe = s.probe) : OptSound t := by
  unfold OptSound at *; rw [e]; exact h

/-! ### The entries of the LET -/

theorem mem_letEntries (s : State) (e : LetEntry) :
    e ∈ s.letEntries ↔ ∃ i, s.evidence.slots.get i = some e := by
  simp [State.letEntries, List.mem_filterMap]

theorem named_iff (s : State) (p : Port) : s.named p = true ↔ Named s p := by
  simp only [State.named, List.any_eq_true, mem_letEntries, decide_eq_true_eq, Named]
  constructor
  · rintro ⟨e, ⟨i, h⟩, h'⟩; exact ⟨i, e, h, h'⟩
  · rintro ⟨i, e, h, h'⟩; exact ⟨e, ⟨i, h⟩, h'⟩

theorem named_false (s : State) (p : Port) : s.named p = false ↔ ¬ Named s p := by
  rw [← named_iff]; simp

theorem involved_iff (s : State) (p : Port) : s.involved p = true ↔ Involved s p := by
  simp only [State.involved, List.any_eq_true, mem_letEntries, Bool.or_eq_true, decide_eq_true_eq, Involved]
  constructor
  · rintro ⟨e, ⟨i, h⟩, h'⟩; exact ⟨i, e, h, h'⟩
  · rintro ⟨i, e, h, h'⟩; exact ⟨e, ⟨i, h⟩, h'⟩

theorem involved_false (s : State) (p : Port) : s.involved p = false ↔ ¬ Involved s p := by
  rw [← involved_iff]; simp

/-! ### Searches -/

theorem findOpt_some {r : Round} {x : Port} {s : State} {i : Fin 32} (h : findOpt r x s = some i) :
    ∃ e, s.probe.opt.get i = some e ∧ e.round = r ∧ e.egress = x := by
  have := List.find?_some h
  revert this
  cases hi : s.probe.opt.get i with
  | none => simp
  | some e => intro h'; exact ⟨e, rfl, of_decide_eq_true h'⟩

theorem findOpt_none {r : Round} {x : Port} {s : State} :
    findOpt r x s = none ↔ ∀ i e, s.probe.opt.get i = some e → ¬(e.round = r ∧ e.egress = x) := by
  unfold findOpt
  rw [List.find?_eq_none]
  constructor
  · intro h i e hi
    have := h i (List.mem_finRange i)
    rw [hi] at this
    simpa using this
  · intro h i _
    split
    · next e hi => simpa using h i e hi
    · simp

/-- The search finds the one entry of its round and egress. -/
theorem findOpt_unique {r : Round} {x : Port} {s : State} {i : Fin 32} {e : OptEntry}
    (hi : s.probe.opt.get i = some e) (hr : e.round = r) (hx : e.egress = x)
    (one : ∀ j f, s.probe.opt.get j = some f → f.round = r → f.egress = x → j = i) :
    findOpt r x s = some i := by
  cases h : findOpt r x s with
  | none => exact absurd ⟨hr, hx⟩ (findOpt_none.mp h i e hi)
  | some j =>
    obtain ⟨f, hj, hr', hx'⟩ := findOpt_some h
    rw [one j f hj hr' hx']

theorem findLet_some {x y : Port} {s : State} {i : Fin 16} (h : findLet x y s = some i) :
    ∃ e, s.evidence.slots.get i = some e ∧ e.egress = x ∧ e.ingress = y := by
  have := List.find?_some h
  revert this
  cases hi : s.evidence.slots.get i with
  | none => simp
  | some e => intro h'; exact ⟨e, rfl, of_decide_eq_true h'⟩

theorem findLet_none {x y : Port} {s : State} :
    findLet x y s = none ↔ ∀ i e, s.evidence.slots.get i = some e → ¬(e.egress = x ∧ e.ingress = y) := by
  unfold findLet
  rw [List.find?_eq_none]
  constructor
  · intro h i e hi
    have := h i (List.mem_finRange i)
    rw [hi] at this
    simpa using this
  · intro h i _
    split
    · next e hi => simpa using h i e hi
    · simp

/-- The search finds the one entry of its pair. -/
theorem findLet_unique {x y : Port} {s : State} {i : Fin 16} {e : LetEntry}
    (hi : s.evidence.slots.get i = some e) (hx : e.egress = x) (hy : e.ingress = y)
    (one : ∀ j f, s.evidence.slots.get j = some f → f.egress = x → f.ingress = y → j = i) :
    findLet x y s = some i := by
  cases h : findLet x y s with
  | none => exact absurd ⟨hx, hy⟩ (findLet_none.mp h i e hi)
  | some j =>
    obtain ⟨f, hj, hx', hy'⟩ := findLet_some h
    rw [one j f hj hx' hy']

theorem get_set {α : Type} {n : Nat} (v : Vector α n) (i j : Fin n) (a : α) :
    (v.set i.val a i.isLt).get j = if j = i then a else v.get j := by
  have h : (j = i) = (i.val = j.val) := by rw [Fin.ext_iff]; exact propext eq_comm
  simp only [h]
  exact Vector.getElem_set i.isLt j.isLt

/-! ### Requests -/

/-- A frame that is taken becomes the request the line owes an answer, with the host-lost count at 0. -/
theorem takeFrame_carried {body : List Byte} {s t : State} (h : Carried body s t) : takeFrame body s = t := by
  obtain ⟨_, _, _, _, _, hd, rfl⟩ := h
  have hk : hostLostEnds s = s := by simp [hostLostEnds, hd]
  have hc : ({ s.control with hostLost := 0, hostLostDue := false } : ModeUnit) =
      { s.control with hostLost := 0 } := by
    cases hm : s.control; simp only [hm] at hd ⊢; simp [hd]
  simp only [takeFrame, hk, hc]

/-- A frame that is carried arrives whole at a free line. -/
theorem arrives_carried {kind : Byte} {fields : List Byte} {s t : State} (h : Carried (kind :: fields) s t) :
    frameArrives (kind :: fields) s = true ∧ lineFree s = true := by
  obtain ⟨hl, hr, hx, hc, hlen, _, _⟩ := h
  have : (kind :: fields).length ≤ Config.bodyMax := hlen
  simp [frameArrives, lineFree, hl, hr, hx, hc] at this ⊢
  exact this

/-- A request that is carried out answers with what its action makes of the state it is carried out in. -/
theorem request_carried {kind : Byte} {fields : List Byte} {s t : State} (act : State → Answer)
    (h : Carried (kind :: fields) s t) : request kind fields act s = sendReply kind (act t) := by
  obtain ⟨ha, hf⟩ := arrives_carried h
  simp only [request, ha, hf, if_true, takeFrame_carried h]

end Sys2Proof.Machine
end

