-- ==== Sys2Proof/Laws/Requests.lean ====
section
/-! SUPPORT. The path of a request through the line, and the readers of its body. -/

namespace Sys2Proof.Machine

theorem serves_iff (m : Mode) (k : RequestKind) : m.serves k = true ↔ servedIn m k.code := by
  cases m <;> cases k <;> simp [servedIn, RequestKind.code, Mode.serves]

theorem ifServed_yes {k : RequestKind} {act : State → Answer} {t : State}
    (h : servedIn t.control.mode k.code) : ifServed k act t = act t := by
  unfold ifServed; rw [if_pos ((serves_iff _ _).mpr h)]

theorem ifServed_no {k : RequestKind} {act : State → Answer} {t : State}
    (h : ¬ servedIn t.control.mode k.code) : ifServed k act t = refuse .state t := by
  unfold ifServed; rw [if_neg (fun h' => h ((serves_iff _ _).mp h'))]

/-- A served request that is carried out answers with what its action makes of the state. -/
theorem request_served {k : RequestKind} {fields : List Byte} {act : State → Answer} {s t : State}
    (h : Carried (k.code :: fields) s t) (served : servedIn t.control.mode k.code) :
    request k.code fields (ifServed k act) s = sendReply k.code (act t) := by
  rw [request_carried _ h, ifServed_yes served]

/-- A request that its mode does not serve is answered STATE. -/
theorem request_unserved {k : RequestKind} {fields : List Byte} {act : State → Answer} {s t : State}
    (h : Carried (k.code :: fields) s t) (served : ¬ servedIn t.control.mode k.code) :
    request k.code fields (ifServed k act) s = t.replying [k.code + 0x80, 0x02] := by
  rw [request_carried _ h, ifServed_no served]; rfl

/-! ### The character that completes a frame -/

/-- Each request's kind byte names it, and no other. -/
theorem ofCode_iff (kind : Byte) (k : RequestKind) : RequestKind.ofCode kind = some k ↔ k.code = kind := by
  constructor
  · intro h
    simpa using List.find?_some h
  · rintro rfl
    cases k <;> rfl

/-- A kind byte names a request exactly when it is 0x01 to 0x0F. -/
theorem ofCode_isSome : ∀ kind : Byte, (RequestKind.ofCode kind).isSome = namesRequest kind := by decide

/-- A request that has been taken is answered by its owning block, when the mode serves it. -/
theorem answerTo_code (k : RequestKind) (fields : List Byte) (s : State) :
    answerTo k.code fields s = ifServed k (k.act fields) s := by
  unfold answerTo; rw [(ofCode_iff k.code k).mpr rfl]

/-- A kind that names no request is answered UNKNOWN. -/
theorem answerTo_unknown {kind : Byte} (h : namesRequest kind = false) (fields : List Byte) (s : State) :
    answerTo kind fields s = refuse .unknown s := by
  have h' := ofCode_isSome kind
  rw [h] at h'
  unfold answerTo
  cases hk : RequestKind.ofCode kind with
  | none => rfl
  | some k => rw [hk] at h'; cases h'

/-- With no frame just completed there is nothing to judge. -/
theorem judgeComplete_none {s : State} (h : s.mgmt.complete = none) : judgeComplete s = s := by
  simp only [judgeComplete, h]

/-- A frame that is taken is carried out at once, in the state in which it is taken. -/
theorem serve_carried {kind : Byte} {fields : List Byte} {s t : State} (h : Carried (kind :: fields) s t) :
    serve (kind :: fields) s = sendReply kind (answerTo kind fields t) := by
  simp only [serve, takeFrame_carried h]

/-- KEY sampled twice at one level is sampled once. -/
theorem sampleKey_same {key : Bool} {s : State} (h : s.key = key) : sampleKey key s = s := by
  subst h
  unfold sampleKey
  cases hk : s.key <;> simp [← hk]

/-! ### Bodies -/

theorem parsePairs_length : ∀ (l : List Byte) (r : List (Byte × Nat)), parsePairs l = some r →
    l.length = 4 * r.length
  | [], r, h => by simp [parsePairs] at h; subst h; rfl
  | [a], r, h => by simp [parsePairs] at h
  | [a, b], r, h => by simp [parsePairs] at h
  | [a, b, c], r, h => by simp [parsePairs] at h
  | a :: b :: c :: d :: rest, r, h => by
    simp [parsePairs] at h
    obtain ⟨q, hq, rfl⟩ := h
    have := parsePairs_length rest q hq
    simp only [List.length_cons]; omega

theorem namePairs_length : ∀ (l : List (Byte × Nat)) (r : List (Byte × Param × Nat)), namePairs l = some r →
    r.length = l.length
  | [], r, h => by simp [namePairs] at h; subst h; rfl
  | (i, v) :: rest, r, h => by
    unfold namePairs at h
    split at h
    · next p more _ h2 =>
      have := namePairs_length rest _ h2
      simp only [Option.some.injEq] at h; subst h; simp [this]
    · exact absurd h (by simp)

theorem parseRoles_length : ∀ (l : List Byte) (r : List Role), parseRoles l = some r → r.length = l.length
  | [], r, h => by simp [parseRoles] at h; subst h; rfl
  | b :: rest, r, h => by
    unfold parseRoles at h
    split at h
    · next p more _ h2 =>
      have := parseRoles_length rest _ h2
      simp only [Option.some.injEq] at h; subst h; simp [this]
    · exact absurd h (by simp)

end Sys2Proof.Machine
end

