-- ==== Sys2Proof/Tests/Slice0.lean ====
section
/-! SUPPORT. Tests of the model on small states: well-formedness, codes and layouts, worked cases of the spec, and
for every statement with hypotheses a state and operands that meet them. -/

set_option maxRecDepth 20000

namespace Sys2Proof.Tests

open Sys2Proof Sys2Proof.Machine

/-! ### Small states -/

/-- A record of a port in a guard state with its switch state confirmed. -/
def steady (role : Role) (up : Bool) (g : GuardState) : PortRec :=
  { startRecord factoryPolicy role with
    linkUp := up
    guard := g
    wanted := wantedOf .noOverride g
    confirmed := some (wantedOf .noOverride g)
    pendingFlag := false }

/-- The record of each port in `ready`: ports 0 to 3 are ACCESS and forwarding, 23 TEACHER and 24 UPLINK
likewise, every other port without link. -/
def readyRec (p : Port) : PortRec :=
  if p.val < 4 then steady .access true .forward
  else if p.val = 23 then steady .teacher true .forward
  else if p.val = 24 then steady .uplink true .forward
  else steady (factoryRole p) false .down

/-- A part in MANAGED with the factory policy, six links up, and everything quiet. -/
def ready : State :=
  { State.reset with
    ports := Vector.ofFn readyRec
    order := [0, 1, 2, 3, 23, 24]
    clock := { stamp := 100, length := some 10, round := some 5, timer := 3, base := some 20, roundDue := false }
    meter := { takingStamp := some 100, lateOrDuplicate := 0, missing := 0 }
    control := { State.reset.control with mode := .managed, policy := factoryPolicy, sweep := [], loading := false }
    settings :=
      { policyArea := Area.written policyCheck factoryPolicy
        roleArea := Area.written roleCheck factoryRoles
        policyValidity := .valid
        roleValidity := .valid
        write := none }
    key := true }

/-- The state after a command. -/
def after (c : Instr) (s : State) : State :=
  match exec c s with
  | .next t => t
  | .fault _ => s
  | .refused _ => s

def inMode (m : Mode) (s : State) : State := { s with control := { s.control with mode := m } }
def inLink (l : LinkState) (s : State) : State := { s with glink := { s.glink with state := l } }

/-- An OPT entry in a slot. -/
def withOpt (i : Fin 32) (e : OptEntry) (s : State) : State :=
  { s with probe := { s.probe with opt := s.probe.opt.set i.val (some e) i.isLt } }

/-- A LET entry in a slot. -/
def withLet (i : Fin 16) (e : LetEntry) (s : State) : State :=
  { s with evidence := { s.evidence with slots := s.evidence.slots.set i.val (some e) i.isLt } }

/-- An entry of a port's probe in the current round of `ready`, due at its interval stamp. -/
def dueProbe (p : Port) (caught : List Port) : OptEntry := ⟨5, p, .out 100, caught, true⟩

/-- Evidence of a pair, first seen now. -/
def evidence (x y : Port) (count : Nat) (v : Option Port) : LetEntry := ⟨x, y, count, 100, v, false, true⟩

/-- A command outstanding, with its ACK timer running. -/
def outstanding (k : OutstandingKind) (p : Port) (s : State) : State :=
  { s with glink := { s.glink with outstanding := some ⟨k, p, true⟩ } }

/-- The state in which a request that arrives whole is carried out. -/
def taken (body : List Byte) (s : State) : State :=
  { s with mgmt := { s.mgmt with line := .owed body }, control := { s.control with hostLost := 0 } }

/-- The reply line is sending a reply. -/
def replying (s : State) : State := { s with mgmt := { s.mgmt with line := .sending [0x8E, 6] } }

/-- The reply that a request brings. -/
def replyOf (c : Instr) (s : State) : List Byte :=
  match (after c s).mgmt.line with
  | .sending b => b
  | .idle => []
  | .owed _ => []

/-- A statement about every entry of a table, in a form that can be decided. -/
theorem entries {α : Type} {n : Nat} {v : Vector (Option α) n} {P : Fin n → α → Prop}
    (h : ∀ i, ∀ e ∈ v.get i, P i e) (i : Fin n) (e : α) (hi : v.get i = some e) : P i e := h i e hi

/-! ### Well-formed commands -/

theorem test_wf_framingError : (Instr.framingError []).wellFormed = false ∧
    (Instr.framingError (List.replicate 64 true)).wellFormed = false ∧
    (Instr.framingError (List.replicate 63 true)).wellFormed = true := by decide

theorem test_wf_unknownRecord : (Instr.unknownRecord (0x13#8 ++ 3#5 ++ 1#2 ++ 0#49)).wellFormed = false ∧
    (Instr.unknownRecord (0x13#8 ++ 3#5 ++ 3#2 ++ 0#49)).wellFormed = true := by decide

theorem test_wf_checkFail : (Instr.checkFail [0x0E] (frameCheck [0x0E])).wellFormed = false ∧
    (Instr.checkFail [] 0).wellFormed = false ∧ (Instr.checkFail [0x0E] 0).wellFormed = true := by decide

theorem test_wf_body : (Instr.rejectBusy 3 (List.replicate 200 0)).wellFormed = false ∧
    (Instr.rejectBusy 3 (List.replicate 199 0)).wellFormed = true ∧
    (Instr.stat true (List.replicate 200 0)).wellFormed = false := by decide

theorem test_wf_unknown : (Instr.unknown 0x0F []).wellFormed = false ∧ (Instr.unknown 0x00 []).wellFormed = true ∧
    (Instr.unknown 0x10 []).wellFormed = true := by decide

/-! ### Codes and layouts -/

/-- The check value of the CRC-16 named in R154. -/
theorem test_crc : crc16 [0x31, 0x32, 0x33, 0x34, 0x35, 0x36, 0x37, 0x38, 0x39] = 0x29B1 := by decide

/-- Bytes 63 to 56 kind, 55 to 51 port, 47 to 40 stamp, 39 to 24 F. -/
theorem test_record_digest : decodeRecord 0x1170_2C05_DC00_0000 = some (.digest 14 44 1500) := by decide

theorem test_record_catch :
    decodeRecord 0x1228_8004_0000_0014 = some (.catchRecord 5 2 1 5) ∧
    decodeRecord 0x12FF_FFFF_FFFF_FFFF = some (.catchRecord 31 31 4095 0xFFFFFFFF) := by decide

theorem test_record_link :
    decodeRecord 0x132A_0000_0000_0000 = some (.link 5 true) ∧
    decodeRecord 0x132C_0000_0000_0000 = some (.link 5 false) ∧
    decodeRecord 0x1328_0000_0000_0000 = none ∧ decodeRecord 0x132E_0000_0000_0000 = none ∧
    decodeRecord 0x132B_FFFF_FFFF_FFFF = some (.link 5 true) := by decide

theorem test_record_ack :
    decodeRecord 0x144A_8000_0000_0000 = some (.ack 9 true true) ∧
    decodeRecord 0x144D_0000_0000_0000 = some (.ack 9 false false) ∧
    decodeRecord 0x144A_0000_0000_0000 = none ∧ decodeRecord 0x2148_0000_0000_0000 = none := by decide

theorem test_record_out :
    (OutRecord.strobe 0x2C).word = 0x212C_0000_0000_0000 ∧
    (OutRecord.setport 9 .hold).word = 0x224E_0000_0000_0000 ∧
    (OutRecord.inject 9 1 5).word = 0x234A_4004_0000_0014 := by decide

theorem test_report_bytes :
    (Report.mk 0x01020304 (.loop 9 5 9 2 1)).bytes = [2, 1, 2, 3, 4, 9, 5, 9, 2, 1, 0, 0, 0, 0, 0, 0] ∧
    (Report.mk 7 (.mode .rest .managed (.wake .caught 3))).bytes =
      [5, 0, 0, 0, 7, 3, 3, 2, 3, 2, 0, 0, 0, 0, 0, 0] ∧
    (Report.mk 7 (.linkFaultUp 31 .digest)).bytes = [4, 0, 0, 0, 7, 31, 1, 0x11, 0, 0, 0, 0, 0, 0, 0, 0] := by
  decide

theorem test_frame_bytes : frameBytes [0x80, 0x10] =
    [0xC3, 2, 0x80, 0x10] ++ bytesOf 2 (crc16 [2, 0x80, 0x10]).toNat := by decide

theorem test_probe_frame : (probeFrame 0x01020304 0x0FFF 9).length = 60 ∧
    (probeFrame 0x01020304 0x0FFF 9).take 22 =
      [0xFF, 0xFF, 0xFF, 0xFF, 0xFF, 0xFF, 2, 0, 1, 2, 3, 4, 0x88, 0xB5, 1, 1, 2, 3, 4, 0x0F, 0xFF, 9] := by decide

theorem test_attn : ready.attn = false ∧
    ({ ready with reports := { ready.reports with queue := [⟨0, .gap 1⟩] } } : State).attn = true ∧
    ({ ready with reports := { ready.reports with overflow := true } } : State).attn = true := by decide

/-! ### Worked cases -/

/-- The storm on an ACCESS port, intervals 2 to 4: E 0, 44,928 and 86,288 (02 "worked case"). -/
theorem test_storm :
    let r2 := meterUpdate factoryAccess 1488 { startRecord factoryPolicy .access with creditB := 1532 }
    let r3 := meterUpdate factoryAccess 1488 r2
    let r4 := meterUpdate factoryAccess 1488 r3
    (r2.creditB, r2.avgE, r2.trip) = (64, 0, false) ∧ (r3.creditB, r3.avgE, r3.trip) = (0, 44928, false) ∧
    (r4.creditB, r4.avgE, r4.trip) = (0, 86288, true) := by decide

/-- The decay after it: E 75,502 with B 5, then 66,064. -/
theorem test_storm_ends :
    let r := { startRecord factoryPolicy .access with creditB := 0, avgE := 86288, trip := true }
    let r5 := meterUpdate factoryAccess 0 r
    let r6 := meterUpdate factoryAccess 0 r5
    (r5.creditB, r5.avgE, r5.trip) = (5, 75502, true) ∧ (r6.creditB, r6.avgE, r6.trip) = (10, 66064, true) := by
  decide

/-- Allowance and refill at their boundary (R27). -/
theorem test_credit : creditStep factoryAccess 2998 20 = (3000, 0) ∧ creditStep factoryAccess 340 400 = (0, 40) ∧
    creditStep factoryAccess 1 21 = (0, 0) := by decide

/-- The clamped parameters of ch. 09: Ttrip 40, Tclear 80, tRND 3, tEXP 9, tHOLD0 5,000. -/
theorem test_setp : replyOf
    (.setp [0x13, 0, 0, 40, 0x14, 0, 0, 80, 0x40, 0, 0, 3, 0x41, 0, 0, 9, 0x44, 0, 0x13, 0x88]) ready =
      [0x87, 0, 0x13, 0, 0, 40, 0x14, 0, 0, 39, 0x40, 0, 0, 5, 0x41, 0, 0, 4, 0x44, 0, 0x07, 0xD0] := by decide

/-- ACCESS Ttrip 40 alone brings the extra pair ACCESS Tclear 39. -/
theorem test_setp_extra : replyOf (.setp [0x13, 0, 0, 40]) ready = [0x87, 0, 0x13, 0, 0, 40, 0x14, 0, 0, 39] := by
  decide

/-- The holds of strikes 1 to 6 at the default tHOLD0 (R95). -/
theorem test_holds : [1, 2, 3, 4, 5, 6].map (holdFor 500) = [500, 1000, 2000, 4000, 8000, 16000] ∧
    strikeUp 6 = 6 := by decide

/-- The round timer's length in REST: ten times the base, at most 2,500 (R39). -/
theorem test_rest_length : effectiveLength (inMode .rest ready) = some 200 ∧ effectiveLength ready = some 20 ∧
    effectiveLength { inMode .rest ready with clock := { ready.clock with base := some 250 } } = some 2500 := by
  decide

/-- Three classes and the pointer (ch. 07): with the pointer at 9 the search starts at 10. -/
theorem test_search : (searchOrder 9).take 3 = [10, 11, 12] ∧ (searchOrder 9).drop 25 = [7, 8, 9] ∧
    (searchOrder 27).head? = some 0 := by decide

/-! ### Commands -/

theorem test_powerReset : (after (.powerReset true) ready).mgmt.fast = true ∧
    (after (.powerReset true) ready).control.mode = .start ∧
    (after (.powerReset true) ready).settings.policyValidity = .notLoaded := by decide

theorem test_pinReset : (after (.pinReset false) ready).control.resetCause = .pin ∧
    (after (.pinReset false) ready).settings.policyArea = ready.settings.policyArea := by decide

theorem test_load : (after .settingsStoreLoad State.reset).control.loading = false ∧
    (after .settingsStoreLoad State.reset).settings.policyValidity = .valid ∧
    ((after .settingsStoreLoad State.reset).port 23).role = .teacher ∧
    (after .settingsStoreLoad State.reset).control.sweep.length = 28 := by decide

/-- A part with its roles applied grants its first SETPORT of the sweep to port 0. -/
theorem test_first_grant : (after .setport (after .settingsStoreLoad State.reset)).glink.sending =
    some (.setport 0 .hold) := by decide

theorem test_interval : (after .intervalEvent ready).clock.stamp = 101 ∧
    (after .intervalEvent ready).glink.sending = some (.strobe 101) ∧
    ((after .intervalEvent ready).port 0).mark = .awaited ∧ ((after .intervalEvent ready).port 4).mark = .idle ∧
    ((after .intervalEvent ready).port 0).decay = 1 ∧ (after .intervalEvent ready).control.hostLost = 1 := by decide

theorem test_round : (after .roundStart { ready with clock := { ready.clock with roundDue := true } }).probe.list =
    [0, 1, 2, 3, 23] := by decide

theorem test_inject : (after .inject { ready with probe := { ready.probe with list := [2, 3] } }).glink.sending =
    some (.inject 2 5 0) ∧
    (after .inject { ready with probe := { ready.probe with list := [2, 3] } }).probe.list = [3] := by decide

theorem test_expiry :
    let s := withLet 0 (evidence 2 3 1 (some 3)) (withOpt 4 (dueProbe 2 []) ready)
    (after .probeExpiry s).probe.opt.get 4 = none ∧ (after .probeExpiry s).evidence.slots.get 0 = none := by decide

/-- A credited catch of two forwarding ACCESS ports: the more recent one is the victim and turns SUSPECT. -/
theorem test_catch :
    let s := after (.catchRecord 3 2 5 0) (withOpt 4 (dueProbe 2 []) ready)
    s.evidence.slots.get 0 = some (evidence 2 3 1 (some 3)) ∧ (s.port 3).guard = .suspect ∧
    s.reports.queue = [⟨100, .state 3 .forward .suspect .evidence⟩] := by decide

/-- A second sighting confirms at nCONF 2: BLOCKED with strike 1 and a hold of 500. -/
theorem test_confirm :
    let s := after (.catchRecord 3 2 5 0) (withLet 0 (evidence 2 3 1 (some 3)) (withOpt 4 (dueProbe 2 []) ready))
    (s.port 3).guard = .blocked ∧ (s.port 3).hold = 500 ∧ (s.port 3).wanted = .hold ∧
    s.reports.queue = [⟨100, .state 3 .forward .blocked .confirm⟩, ⟨100, .loop 3 2 3 2 1⟩] := by decide

/-- A trip in FORWARD without evidence (R89). -/
theorem test_trip :
    let s := after (.digest 1 100 65535) ready
    (s.port 1).guard = .throttle ∧ (s.port 1).throttleHold = 100 ∧ (s.port 1).wanted = .floodcut := by decide

theorem test_late_digest : (after (.digest 1 99 10) ready).meter.lateOrDuplicate = 1 ∧
    (after (.digest 4 100 10) ready).meter.lateOrDuplicate = 1 ∧
    (after (.digest 28 100 10) ready).glink.badPorts = 1 := by decide

theorem test_link_up : ((after (.link 4 true) ready).port 4).guard = .listen ∧
    (after (.link 4 true) ready).order = [0, 1, 2, 3, 23, 24, 4] := by decide

theorem test_link_down : ((after (.link 1 false) ready).port 1).guard = .down ∧
    (after (.link 1 false) ready).order = [0, 2, 3, 23, 24] ∧
    ((after (.link 1 false) ready).port 1).pendingFlag = true := by decide

/-- A link-up report in REST wakes the part first, and its MODE record comes before the STATE record. -/
theorem test_wake : (after (.link 4 true) (inMode .rest ready)).reports.queue =
    [⟨100, .mode .rest .managed (.wake .linkUp 4)⟩, ⟨100, .state 4 .down .listen .linkUp⟩] := by decide

theorem test_ack_refused :
    let s := after (.ack 1 false true) (outstanding (.setport 0) 1 ready)
    (s.port 1).present = false ∧ (s.port 1).guard = .disabled ∧ s.order = [0, 2, 3, 23, 24] := by decide

theorem test_ack_timeout :
    let s := after .ackTimeout (outstanding (.setport 5) 1 { ready with arbiter := { ready.arbiter with faultRun := 2 } })
    s.glink.state = .unresponsive ∧ s.arbiter.pointer = 5 ∧ s.arbiter.pacing = true ∧
    s.reports.queue = [⟨100, .linkFaultDown 1 .setport⟩] := by decide

theorem test_framing : (after (.framingError [true, false]) ready).glink.framingErrors = 1 ∧
    (after (.unknownRecord 0x2148_0000_0000_0000) ready).glink.unknownRecords = 1 := by decide

/-- A frame comes in character by character: its last character takes the request, carries it out and sends the reply,
and REPLY_END makes the line IDLE. -/
theorem test_characters :
    let s := ([0xC3, 1, 0x0E] ++ bytesOf 2 (frameCheck [0x0E]).toNat).foldl
      (fun t b => after (.character b ⟨false, true⟩) t) ready
    s.mgmt.complete = none ∧ s.mgmt.rx = .hunt ∧ s.mgmt.line = .sending [0x8E, 6] ∧
    (after (.replyEnd false) s).mgmt.line = .idle := by decide

/-- A request is carried out at the take: a MODE REST frame taken in MANAGED, its characters done, is not judged again
by a later command. -/
theorem test_characters_take :
    let s := ([0xC3, 2, 0x06, 3] ++ bytesOf 2 (frameCheck [0x06, 3]).toNat).foldl
      (fun t b => after (.character b ⟨false, true⟩) t) ready
    s.control.mode = .rest ∧ (after (.link 4 true) s).control.mode = .managed ∧
    (after (.link 4 true) s).mgmt.line = .sending [0x86, 0, 3] := by decide

theorem test_gap : (after .gapTimeout { ready with mgmt := { ready.mgmt with rx := .len } }).mgmt.line =
    .sending [0x80, 0x10] := by decide

theorem test_bad_length : (after (.character 201 ⟨false, true⟩) { ready with mgmt := { ready.mgmt with rx := .len } }).mgmt.badLength
    = 1 := by decide

theorem test_check_fail : (after (.checkFail [0x0E] 0) ready).mgmt.line = .sending [0x80, 0x11] := by decide

theorem test_busy : (after (.rejectBusy 3 [1]) (replying ready)).mgmt.reject = some (.busy 3) := by decide

theorem test_unknown : replyOf (.unknown 0xFF []) ready = [0x7F, 5] := by decide

theorem test_stat : (replyOf (.stat true []) ready).length = 61 ∧
    (replyOf (.stat true []) ready).take 9 = [0x81, 0, 2, 0, 0, 1, 0xFF, 0, 0] := by decide

theorem test_portq : (replyOf (.portq [27, 5]) ready).length = 22 ∧
    replyOf (.portq [0, 0]) ready =
      [0x82, 0, 1, 0, 1, 1, 2, 0, 0, 0, 0, 0, 0, 0, 0, 0, 0, 0, 0, 0x0B, 0xB8, 0] := by decide

theorem test_fetch :
    let s := { ready with reports := { ready.reports with queue := [⟨7, .gap 3⟩] } }
    replyOf (.fetch [0]) s = [0x83, 0, 1, 8, 0, 0, 0, 7, 0, 0, 3, 0, 0, 0, 0, 0, 0, 0, 0, 0] := by decide

theorem test_ackgap :
    let s := { ready with reports := { ready.reports with overflow := true, lost := 5 } }
    replyOf (.ackgap []) s = [0x84, 0, 1] ∧ (after (.ackgap []) s).reports.queue = [⟨100, .gap 5⟩] := by decide

theorem test_trapclr : replyOf (.trapclr []) { ready with trap := some ⟨.letTable, 3, 9, true⟩ } =
    [0x85, 0, 1, 1, 3, 0, 0, 0, 9, 1] ∧ replyOf (.trapclr []) ready = [0x85, 0, 0, 0, 0, 0, 0, 0, 0, 0] := by decide

theorem test_mode : replyOf (.mode [3]) ready = [0x86, 0, 3] ∧
    replyOf (.mode [3]) { ready with reports := { ready.reports with watch := some (newWatch 1 0 1) } } = [0x86, 2] ∧ replyOf (.mode [1]) ready = [0x86, 0, 1] := by decide

theorem test_lesson : ((after (.lesson []) (ready.modPort 1 fun r => { r with creditB := 7 })).port 1).creditB = 3000 ∧
    ((after (.lesson []) ready).port 23).creditB = 6000 := by decide

theorem test_reset : (after (.reset []) ready).mgmt.resetOwed = true ∧
    (after (.replyEnd true) (after (.reset []) ready)).control.resetCause = .request := by decide

theorem test_roles : replyOf (.roles true [0, 1, 3]) ready = [0x88, 0, 2] ∧
    ((after (.roles true [0, 1, 3]) ready).port 1).guard = .disabled ∧
    replyOf (.roles false [0, 1, 3]) ready = [0x88, 3] ∧ replyOf (.roles true [27, 0, 0]) ready = [0x88, 4] := by decide

theorem test_ovrd : replyOf (.ovrd [0, 2]) ready = [0x89, 0, 0, 2, 2, 2] ∧
    ((after (.ovrd [0, 2]) ready).port 0).pendingFlag = true := by decide

theorem test_store : replyOf (.store true [1]) ready = [0x8B, 0, 1] ∧
    (after (.writeCompletion true) (after (.store true [1]) ready)).reports.queue = [⟨100, .stored .roles .done⟩] ∧
    (after .keyFall (after (.store true [1]) ready)).reports.queue = [⟨100, .stored .roles .abandoned⟩] := by decide

theorem test_watch : replyOf (.watch [14, 0, 3, 0]) ready = [0x8C, 0, 14, 0, 3, 1] := by decide

theorem test_extend :
    let s := { ready with reports := { ready.reports with watch := some (newWatch 14 3 1) } }
    replyOf (.extend [0, 0]) s = [0x8D, 0, 0, 1] ∧ replyOf (.extend [0, 0]) ready = [0x8D, 6] := by decide

theorem test_unwatch :
    let s := { ready with reports := { ready.reports with watch := some (newWatch 14 3 1) } }
    (after (.unwatch []) s).reports.queue = [⟨100, .watchEnd 14 .stopped 0⟩] := by decide

/-- The last sample of a watch without an extension ends it (R173). -/
theorem test_watch_ends :
    let s := { ready with reports := { ready.reports with watch := some (newWatch 1 1 1) } }
    (after (.digest 1 100 10) s).reports.watch = none ∧
    (after (.digest 1 100 10) s).reports.queue =
      [⟨100, .sample 1 10 0 3000 false⟩, ⟨100, .watchEnd 1 .complete 0⟩] := by decide

theorem test_strobe_end : (after .strobeLastBit
    { ready with glink := { ready.glink with sending := some (.strobe 1), waiting := some (.setport 1 .hold) } }).glink.sending
    = some (.setport 1 .hold) := by decide

theorem test_command_end : (after .commandLastBit (after .inject { ready with probe := { ready.probe with list := [2] } })
    ).glink.outstanding = some ⟨.inject 5, 2, true⟩ := by decide

/-! ### Witnesses: states and operands that meet the hypotheses of each statement -/

/-- A frame that arrives whole at a free line is taken, with any body that LEN can carry. -/
theorem carried (body : List Byte) {s : State} (quiet : s.mgmt = State.reset.mgmt)
    (due : s.control.hostLostDue = false) (h : body.length ≤ 200) : Carried body s (taken body s) := by
  unfold Carried
  rw [quiet]
  exact ⟨rfl, rfl, rfl, rfl, h, due, by unfold taken; rw [quiet]⟩

theorem fits_ready : ∀ p, (ready.port p).Fits := by
  have h : ∀ p, ((ready.port p).guard.linked = true → (ready.port p).linkUp = true) ∧
      ((ready.port p).guard = .down → (ready.port p).linkUp = false) ∧
      ((ready.port p).guard = .disabled ↔ (ready.port p).role = .unused ∨ (ready.port p).present = false) ∧
      ((ready.port p).present = false → (ready.port p).linkUp = false) := by decide
  exact fun p => ⟨(h p).1, (h p).2.1, (h p).2.2.1, (h p).2.2.2⟩

theorem optSound_ready : OptSound ready := entries (by decide)

theorem letSound_ready : LetSound ready := ⟨rfl, entries (by decide)⟩

theorem no_evidence (i : Fin 16) (e : LetEntry) : ready.evidence.slots.get i ≠ some e :=
  fun h => entries (P := fun _ _ => False) (by decide) i e h

/-- A probe of port 2 due now, in slot 4. -/
def probing : State := withOpt 4 (dueProbe 2 []) ready

theorem optSound_probing : OptSound probing := entries (by decide)

theorem letSound_probing : LetSound probing := ⟨rfl, entries (by decide)⟩

theorem one_probing : ∀ j f, probing.probe.opt.get j = some f → f.round = 5 → f.egress = 2 → j = 4 :=
  entries (by decide)

/-- Port 2 in LISTEN with a listen count, its probe due, and a trip flag. -/
def listening (n : Nat) (trip : Bool) : State :=
  probing.modPort 2 fun r => { r with guard := .listen, listen := n, trip := trip }

/-- Evidence of the pair (2, 3) with port 3 its victim. -/
def looped (n : Nat) : State := withLet 0 (evidence 2 3 n (some 3)) probing

theorem witness_StepRunsFrontCommand : ready.pending = [] := rfl

theorem witness_ResetsClearVolatileState : ∃ s : State, s.mgmt.line = .sending [0x8F, 0] ∧ s.mgmt.resetOwed = true :=
  ⟨{ ready with mgmt := { ready.mgmt with line := .sending [0x8F, 0], resetOwed := true } }, rfl, rfl⟩

theorem witness_LoadAppliesBothAreas :
    State.reset.control.loading = true ∧ State.reset.settings.write = none := by decide

/-- The last port of the sweep is in flight, in both boot modes. -/
theorem witness_LastAnswerEndsStart (managed : Bool) : ∃ s : State,
    s.control.policy.bootManaged = managed ∧ s.control.mode = .start ∧ s.control.loading = false ∧
    s.glink.outstanding = some ⟨.setport 26, 27, true⟩ ∧ s.control.sweep = [27] :=
  ⟨outstanding (.setport 26) 27
      { ready with
        control :=
          { ready.control with
            mode := .start
            sweep := [27]
            policy := { factoryPolicy with bootManaged := managed } } },
    rfl, rfl, rfl, rfl, rfl⟩

/-- Port 24 is an UPLINK port in LISTEN when the last answer ends START: its count stands (R86). -/
theorem test_start_books_no_uplink :
    let s := outstanding (.setport 26) 27
      { ready.modPort 24 fun r => { r with guard := .listen, listen := 1 } with
        control := { ready.control with mode := .start, sweep := [27] } }
    ((after (.ack 27 true false) s).port 24).guard = .listen ∧ ((after (.ack 27 true false) s).port 24).listen = 1 ∧
    ((after (.ack 27 true false) s).port 24).role = .uplink := by decide

theorem witness_IntervalEventMovesTheClock : ready.control.mode ≠ .start ∧
    ∃ s : State, s.control.mode = .start ∧ s.control.loading = false ∧ s.glink.state = .unresponsive :=
  ⟨by decide, inLink .unresponsive (inMode .start ready), rfl, rfl, rfl⟩

theorem nothingDue_ready : NothingDue ready where
  round := rfl
  expiry := entries (by decide)
  ports := by decide
  host := rfl
  strobe := fun b => ⟨by simp [ready, State.reset], by simp [ready, State.reset]⟩

theorem witness_IntervalEventCounts : ready.control.mode ≠ .start ∧ Settled ready :=
  ⟨by decide, { toNothingDue := nothingDue_ready, sound := optSound_ready }⟩

theorem witness_RoundStartRebuildsTheList : ∃ s : State, s.clock.roundDue = true :=
  ⟨{ ready with clock := { ready.clock with roundDue := true } }, rfl⟩

/-- The UPLINK port 24 in LISTEN at a round start that is due. -/
def uplinkListens (n : Nat) (trip : Bool) : State :=
  { ready.modPort 24 fun r => { r with guard := .listen, listen := n, trip := trip } with
    clock := { ready.clock with roundDue := true } }

/-- Counting and leaving, tripped or not, with the link UP and UNRESPONSIVE, and with evidence at the uplink. -/
theorem witness_RoundStartRebuildsTheList_uplink (n : Nat) (trip : Bool) (h : n = 0 ∨ n = 1) :
    let s := uplinkListens n trip
    s.clock.roundDue = true ∧ (s.port 24).role = .uplink ∧ (s.port 24).guard = .listen ∧ s.glink.state = .up ∧
    (inLink .unresponsive s).glink.state = .unresponsive ∧ OptSound s ∧ LetSound s ∧ ¬ Involved s 24 ∧
    Involved (withLet 2 (evidence 0 24 1 (some 0)) s) 24 ∧
    (∀ i e, s.probe.opt.get i = some e → e.phase ≠ .out s.clock.stamp ∧ (e.round = 6 ∨ e.round + 1 = 6)) ∧
    ((n = 0 ∧ min 7 (n + 1) < s.control.policy.nLSN) ∨ (n = 1 ∧ LeavesListen 24 (¬ Involved s 24) s)) := by
  have i : ¬ Involved (uplinkListens n trip) 24 := fun ⟨i, e, h', _⟩ => no_evidence i e h'
  have o : ∀ i, ∀ e ∈ ready.probe.opt.get i, e.phase ≠ .out 100 ∧ (e.round = 6 ∨ e.round + 1 = 6) := by decide
  refine ⟨rfl, ?_, ?_, rfl, rfl, optSound_ready, letSound_ready, i, ⟨2, evidence 0 24 1 (some 0), ?_, Or.inr rfl⟩,
    entries o, ?_⟩
  · rcases h with rfl | rfl <;> cases trip <;> decide
  · rcases h with rfl | rfl <;> cases trip <;> decide
  · exact (by decide : (withLet 2 (evidence 0 24 1 (some 0)) ready).evidence.slots.get 2 =
      some (evidence 0 24 1 (some 0)))
  · rcases h with rfl | rfl
    · exact Or.inl ⟨rfl, (by decide : min 7 (0 + 1) < factoryPolicy.nLSN)⟩
    · exact Or.inr ⟨rfl, by cases trip <;> decide, i, by cases trip <;> decide⟩

theorem test_uplink_books :
    ((after .roundStart (uplinkListens 0 false)).port 24).listen = 1 ∧
    (after .roundStart (uplinkListens 1 false)).reports.queue = [⟨100, .state 24 .listen .forward .listenDone⟩] ∧
    ((after .roundStart (uplinkListens 1 true)).port 24).guard = .throttle ∧
    ((after .roundStart (inLink .unresponsive (uplinkListens 1 false))).port 24).listen = 1 ∧
    ((after .roundStart (withLet 2 (evidence 0 24 1 (some 0)) (uplinkListens 1 false))).port 24).listen = 0 := by decide

theorem witness_ProbeExpiryWithdrawsEvidence : OptSound (looped 1) ∧ LetSound (looped 1) ∧
    (looped 1).probe.opt.get 4 = some (dueProbe 2 []) ∧ (dueSlots (looped 1)).head? = some 4 :=
  ⟨entries (by decide), ⟨rfl, entries (by decide)⟩, by decide, by decide⟩

/-- Port 3 in a guard state with a hold, the victim of an entry that the expiry of port 2's probe removes. -/
def suspected (g : GuardState) (hold : Nat) : State :=
  (looped 1).modPort 3 fun r => { r with guard := g, hold := hold }

/-- Evidence-gone reaches port 3 and no other, whatever its guard state; another entry that names it keeps it named. -/
theorem witness_ProbeExpiryWithdrawsEvidence_gone :
    let s := looped 1
    let t := after .probeExpiry s
    (∀ v, v ∈ [(3 : Port)] ↔
      (∃ j l, s.evidence.slots.get j = some l ∧ l.egress = 2 ∧ l.ingress ∉ ([] : List Port) ∧ l.victim = some v) ∧
        ¬ Named t v) ∧
    Named (after .probeExpiry (withLet 9 (evidence 1 3 1 (some 3)) s)) 3 := by
  refine ⟨?_, 9, evidence 1 3 1 (some 3), by decide, rfl⟩
  exact (by decide : ∀ v : Port, v ∈ [(3 : Port)] ↔
    (∃ j, ∃ l ∈ (looped 1).evidence.slots.get j, l.egress = 2 ∧ l.ingress ∉ ([] : List Port) ∧ l.victim = some v) ∧
      ¬ ∃ j, ∃ l ∈ (after .probeExpiry (looped 1)).evidence.slots.get j, l.victim = some v)

/-- SUSPECT to FORWARD, BLOCKED with hold 0 to LISTEN, BLOCKED with a hold stays, and so does a port still named. -/
theorem test_evidence_gone :
    (after .probeExpiry (suspected .suspect 0)).reports.queue = [⟨100, .state 3 .suspect .forward .evidenceGone⟩] ∧
    (after .probeExpiry (suspected .blocked 0)).reports.queue = [⟨100, .state 3 .blocked .listen .release⟩] ∧
    ((after .probeExpiry (suspected .blocked 1)).port 3).guard = .blocked ∧
    ((after .probeExpiry (withLet 9 (evidence 1 3 1 (some 3)) (suspected .suspect 0))).port 3).guard = .suspect := by
  decide

/-- One clean expiry short of nLSN, and the one that reaches it, with and without a trip flag. -/
theorem witness_CleanExpiryCountsTowardsForward (trip : Bool) (n : Nat) (h : n = 0 ∨ n = 1) :
    OptSound (listening n trip) ∧ LetSound (listening n trip) ∧
    (listening n trip).probe.opt.get 4 = some (dueProbe 2 []) ∧
    (dueSlots (listening n trip)).head? = some 4 ∧ (dueProbe 2 []).caught = [] ∧
    ((listening n trip).port 2).role.probed = true ∧ ((listening n trip).port 2).guard = .listen ∧
    (∀ j l, (listening n trip).evidence.slots.get j = some l → l.egress ≠ 2 ∧ l.ingress ≠ 2) ∧
    ((n = 0 ∧ min 7 (n + 1) < (listening n trip).control.policy.nLSN) ∨
      (n = 1 ∧ (listening n trip).control.policy.nLSN ≤ min 7 (n + 1))) := by
  refine ⟨optSound_probing, letSound_probing, ?_, ?_, rfl, ?_, ?_, entries (fun i => ?_), ?_⟩
  · exact (by decide : probing.probe.opt.get 4 = some (dueProbe 2 []))
  · exact (by decide : (dueSlots probing).head? = some 4)
  · cases trip <;> rcases h with rfl | rfl <;> decide
  · cases trip <;> rcases h with rfl | rfl <;> decide
  · revert i
    exact (by decide : ∀ i, ∀ l ∈ probing.evidence.slots.get i, l.egress ≠ 2 ∧ l.ingress ≠ 2)
  · rcases h with rfl | rfl
    · exact Or.inl ⟨rfl, (by decide : min 7 (0 + 1) < factoryPolicy.nLSN)⟩
    · exact Or.inr ⟨rfl, (by decide : factoryPolicy.nLSN ≤ min 7 (1 + 1))⟩

/-- An expiry that is not clean: caught on a port, and uncaught with the port the ingress of another port's evidence. -/
theorem witness_CleanExpiryCountsTowardsForward_unclean :
    let s := (withOpt 4 (dueProbe 2 [3]) ready).modPort 2 fun r => { r with guard := .listen, listen := 1 }
    let u := withLet 0 (evidence 1 2 1 (some 1)) (listening 1 false)
    (OptSound s ∧ LetSound s ∧ s.probe.opt.get 4 = some (dueProbe 2 [3]) ∧ (dueSlots s).head? = some 4 ∧
      (s.port 2).role.probed = true ∧ (s.port 2).guard = .listen ∧ (dueProbe 2 [3]).caught ≠ []) ∧
    OptSound u ∧ LetSound u ∧ u.probe.opt.get 4 = some (dueProbe 2 []) ∧ (dueSlots u).head? = some 4 ∧
    (u.port 2).role.probed = true ∧ (u.port 2).guard = .listen ∧
    (∃ j l, u.evidence.slots.get j = some l ∧ l.egress ≠ 2 ∧ l.ingress = 2) ∧
    ((after .probeExpiry s).port 2).listen = 0 ∧ ((after .probeExpiry u).port 2).listen = 0 :=
  ⟨⟨entries (by decide), ⟨rfl, entries (by decide)⟩, by decide, by decide, by decide, by decide, by decide⟩,
    entries (by decide), ⟨rfl, entries (by decide)⟩, by decide, by decide, by decide, by decide,
    ⟨0, evidence 1 2 1 (some 1), by decide, by decide, rfl⟩, by decide, by decide⟩

/-- Port 3 at the end of its throttle hold or hold, named by the evidence in `looped`, or not in `ready`. -/
theorem witness_CountsThatEndAreJudged (s : State) (h : s = ready ∨ s = looped 1) :
    (let t := s.modPort 3 fun r => { r with guard := .throttle, throttleDue := true }
     LetSound t ∧ (t.port 3).throttleDue = true ∧ (t.port 3).guard = .throttle ∧ (t.port 3).throttleHold = 0 ∧
       (t.port 3).trip = false ∧
       (∀ q, q < 3 → (t.port q).throttleDue = false ∧ (t.port q).holdDue = false ∧ (t.port q).decayDue = false)) ∧
    (let t := s.modPort 3 fun r => { r with guard := .blocked, holdDue := true }
     LetSound t ∧ (t.port 3).holdDue = true ∧ (t.port 3).guard = .blocked ∧ (t.port 3).hold = 0 ∧
       (∀ q, q < 3 → (t.port q).throttleDue = false ∧ (t.port q).holdDue = false ∧ (t.port q).decayDue = false)) ∧
    ((s.modPort 3 fun r => { r with decayDue := true }).port 3).decayDue = true := by
  rcases h with rfl | rfl
  · exact ⟨⟨letSound_ready, by decide⟩, ⟨letSound_ready, by decide⟩, by decide⟩
  · have l : LetSound (looped 1) := ⟨rfl, entries (by decide)⟩
    exact ⟨⟨l, by decide⟩, ⟨l, by decide⟩, by decide⟩

theorem witness_named : ¬ Named ready 3 ∧ Named (looped 1) 3 :=
  ⟨fun ⟨i, e, h, _⟩ => no_evidence i e h, ⟨0, evidence 2 3 1 (some 3), by decide, rfl⟩⟩

theorem witness_HostLostFallsToAutonomous : ∃ s : State, s.control.mode = .managed ∧ s.control.hostLostDue = true :=
  ⟨{ ready with control := { ready.control with hostLostDue := true } }, rfl, rfl⟩

/-- Counts at the allowance of 20 and one above it meet the same hypotheses, on the first port of each role. -/
theorem witness_TakenDigestUpdatesTheMeter : ∀ p ∈ [(0 : Port), 23, 24],
    ready.control.loading = false ∧ ready.meter.takingStamp = some 100 ∧ (ready.port p).present = true ∧
    (ready.port p).linkUp = true ∧ (ready.port p).role ≠ .unused ∧ (ready.port p).mark ≠ .taken := by decide

theorem witness_UntakenDigestIsCounted :
    ready.control.loading = false ∧ ready.glink.state = .up ∧ (ready.port 27).metered = false ∧
    (99 : Byte) ≠ 100 ∧ ((ready.modPort 0 fun r => { r with mark := .taken }).port 0).mark = .taken ∧
    ({ ready with meter := { ready.meter with takingStamp := none } } : State).meter.takingStamp = none := by decide

theorem digestTaken_ready (p : Port) (h : p = 1 ∨ p = 23) (r : PortRec → PortRec)
    (same : ∀ x, (r x).present = x.present ∧ (r x).linkUp = x.linkUp ∧ (r x).role = x.role ∧ (r x).mark = x.mark) :
    DigestTaken p 100 (ready.modPort p r) := by
  have e : (ready.modPort p r).port p = r (ready.port p) := port_modPort_self _ _ _
  have k : ∀ q, q = (1 : Port) ∨ q = 23 → (ready.port q).present = true ∧ (ready.port q).linkUp = true ∧
      (ready.port q).role ≠ .unused ∧ (ready.port q).mark ≠ .taken := by decide
  obtain ⟨k1, k2, k3, k4⟩ := k p h
  obtain ⟨a, b, c, d⟩ := same (ready.port p)
  exact ⟨rfl, rfl, rfl, by rw [e, a]; exact k1, by rw [e, b]; exact k2, by rw [e, c]; exact k3, by rw [e, d]; exact k4⟩

/-- A forwarding port whose whole count is uncovered: 256 × 200 at the least. -/
def flooded (g : GuardState) : State := ready.modPort 1 fun r => { r with guard := g, creditB := 0 }

/-- Trips: in no evidence, in FORWARD or SUSPECT, in MANAGED or REST. -/
theorem witness_TripAndClearEvents_trip (g : GuardState) (h : g = .forward ∨ g = .suspect) (m : Mode)
    (hm : m = .managed ∨ m = .rest) :
    let s := inMode m (flooded g)
    DigestTaken 1 100 s ∧ LetSound s ∧ s.reports.watch = none ∧ ¬ Involved s 1 ∧ (s.port 1).trip = false ∧
    ((s.port 1).guard = .forward ∨ (s.port 1).guard = .suspect) ∧
    256 * (s.rowAt 1).ttrip ≤ nextAverage 1 1620 s := by
  have n : ¬ Involved ready 1 := fun ⟨i, e, h', _⟩ => no_evidence i e h'
  have d : DigestTaken 1 100 (flooded g) := digestTaken_ready 1 (Or.inl rfl) _ fun x => ⟨rfl, rfl, rfl, rfl⟩
  refine ⟨⟨d.running, d.link, d.current, d.present, d.up, d.guarded, d.fresh⟩, letSound_ready, rfl, n, ?_, ?_, ?_⟩ <;>
    rcases h with rfl | rfl <;> rcases hm with rfl | rfl <;> decide

/-- Trips of a port in evidence that names another port, or itself, victim, in every guard state. -/
theorem witness_TripAndClearEvents_interlock (g : GuardState) (v : Port)
    (hv : v = 1 ∨ v = 2) :
    let s := withLet 3 (evidence 1 2 1 (some v)) (flooded g)
    DigestTaken 1 100 s ∧ LetSound s ∧ (s.port 1).trip = false ∧
    256 * (s.rowAt 1).ttrip ≤ nextAverage 1 1620 s ∧
    s.evidence.slots.get 3 = some (evidence 1 2 1 (some v)) ∧ s.evidence.slots.get 0 = none ∧
    ((s.port 2).guard = .forward) := by
  have d : DigestTaken 1 100 (flooded g) := digestTaken_ready 1 (Or.inl rfl) _ fun x => ⟨rfl, rfl, rfl, rfl⟩
  have e : ∀ i, ∀ l ∈ (withLet 3 (evidence 1 2 1 (some v)) ready).evidence.slots.get i, l.parityOk = true := by
    rcases hv with rfl | rfl <;> decide
  refine ⟨⟨d.running, d.link, d.current, d.present, d.up, d.guarded, d.fresh⟩, ⟨rfl, entries e⟩, ?_, ?_, ?_, ?_, ?_⟩ <;>
    rcases hv with rfl | rfl <;> cases g <;> decide

/-- Clears: a throttle hold that has ended and one that has not, with and without evidence that names the port. -/
theorem witness_TripAndClearEvents_clear (n : Nat) (hn : n = 0 ∨ n = 1) (b : Bool) :
    let t := ready.modPort 1 fun r => { r with guard := .throttle, trip := true, throttleHold := n }
    let s := if b then withLet 3 (evidence 1 2 1 (some 1)) t else t
    DigestTaken 1 100 s ∧ LetSound s ∧ s.reports.watch = none ∧ (s.port 1).trip = true ∧
    nextAverage 1 0 s < 256 * (s.rowAt 1).tclear ∧ (s.port 1).guard = .throttle ∧ (s.port 1).throttleHold = n := by
  have d : DigestTaken 1 100
      (ready.modPort 1 fun r => { r with guard := .throttle, trip := true, throttleHold := n }) :=
    digestTaken_ready 1 (Or.inl rfl) _ fun x => ⟨rfl, rfl, rfl, rfl⟩
  have e : ∀ i, ∀ l ∈ (withLet 3 (evidence 1 2 1 (some 1)) ready).evidence.slots.get i, l.parityOk = true := by decide
  rcases hn with rfl | rfl <;> cases b
  · exact ⟨d, letSound_ready, rfl, by decide, by decide, by decide, by decide⟩
  · exact ⟨⟨d.running, d.link, d.current, d.present, d.up, d.guarded, d.fresh⟩, ⟨rfl, entries e⟩, rfl, by decide,
      by decide, by decide, by decide⟩
  · exact ⟨d, letSound_ready, rfl, by decide, by decide, by decide, by decide⟩
  · exact ⟨⟨d.running, d.link, d.current, d.present, d.up, d.guarded, d.fresh⟩, ⟨rfl, entries e⟩, rfl, by decide,
      by decide, by decide, by decide⟩

/-- A trip in REST: the wake, and then the throttling. -/
theorem test_trip_in_rest : (after (.digest 1 100 1620) (inMode .rest (flooded .forward))).reports.queue =
    [⟨100, .mode .rest .managed (.wake .trip 1)⟩, ⟨100, .state 1 .forward .throttle .trip⟩] := by decide

/-- The storm interlock blocks the victim of unconfirmed evidence, here the other port of the pair. -/
theorem test_interlock :
    let t := after (.digest 1 100 1620) (withLet 3 (evidence 1 2 1 (some 2)) (flooded .forward))
    (t.port 2).guard = .blocked ∧ (t.port 1).guard = .throttle ∧
    t.evidence.slots.get 3 = some { evidence 1 2 2 (some 2) with confirmed := true } := by decide

/-- The boundary port numbers 27 and 28; a repeat in MANAGED and in REST. -/
theorem witness_CatchIsJudgedInOrder :
    probing.control.loading = false ∧ probing.glink.state = .up ∧ OptSound probing ∧
    (1 : Identity) ≠ probing.identity ∧ (28 : PortField).toNat = 28 ∧ (probing.port 27).linkUp = false ∧
    (probing.port 3).present = true ∧ (probing.port 3).linkUp = true ∧
    (∀ i e, probing.probe.opt.get i = some e → ¬(e.round = 4 ∧ e.egress = 2)) ∧
    (withOpt 4 (dueProbe 2 [3]) ready).probe.opt.get 4 = some (dueProbe 2 [3]) ∧ (3 : Port) ∈ (dueProbe 2 [3]).caught ∧
    (inMode .rest (withOpt 4 (dueProbe 2 [3]) ready)).control.mode = .rest ∧
    ∀ j f, (withOpt 4 (dueProbe 2 [3]) ready).probe.opt.get j = some f → f.round = 5 → f.egress = 2 → j = 4 :=
  ⟨by decide, by decide, optSound_probing, by decide, by decide, by decide, by decide, by decide,
    entries (by decide), by decide, by decide, rfl, entries (by decide)⟩

/-- With no evidence of the pair (in `probing`), with some (in `looped`), and in REST. -/
theorem witness_CreditedCatchBecomesEvidence (s : State) (h : s = probing ∨ s = looped 7 ∨ s = inMode .rest probing) :
    s.control.loading = false ∧ OptSound s ∧ LetSound s ∧ (s.port 3).present = true ∧ (s.port 3).linkUp = true ∧
    s.probe.opt.get 4 = some (dueProbe 2 []) ∧ (3 : Port) ∉ (dueProbe 2 []).caught ∧
    ∀ j f, s.probe.opt.get j = some f → f.round = 5 → f.egress = 2 → j = 4 := by
  rcases h with rfl | rfl | rfl
  · exact ⟨by decide, optSound_probing, letSound_probing, by decide, by decide, by decide, by decide, one_probing⟩
  · exact ⟨by decide, optSound_probing, ⟨rfl, entries (by decide)⟩, by decide, by decide, by decide, by decide,
      one_probing⟩
  · exact ⟨by decide, optSound_probing, letSound_probing, by decide, by decide, by decide, by decide, one_probing⟩

/-- A full table without the pair (2, 3), whose lowest count is that of slot 6, an entry that names a port victim. -/
def crowded (z : Port) : State :=
  { probing with
    evidence :=
      { probing.evidence with
        slots := Vector.ofFn fun i => some (if i = 6 then evidence 0 1 1 (some z) else evidence 23 24 2 none) } }

/-- The lowest free slot, and the evicted slot of a full table; the evicted victim named by no entry (port 1), and by the
new entry (port 3); with and without confirmation. -/
theorem witness_CreditedCatchBecomesEvidence_new :
    (probing.evidence.slots.get 0 = none ∧ ∀ j, j < 0 → (probing.evidence.slots.get j).isSome = true) ∧
    (∀ j l, probing.evidence.slots.get j = some l → ¬(l.egress = 2 ∧ l.ingress = 3)) ∧
    (∀ z, (∀ j, ((crowded z).evidence.slots.get j).isSome = true)) ∧
    (∀ z ∈ [(1 : Port), 3], evictChoice (crowded z) = some 6 ∧ OptSound (crowded z) ∧ LetSound (crowded z) ∧
      ∀ j l, (crowded z).evidence.slots.get j = some l → ¬(l.egress = 2 ∧ l.ingress = 3)) ∧
    ¬ Named (after (.catchRecord 3 2 5 0) (crowded 1)) 1 ∧ Named (after (.catchRecord 3 2 5 0) (crowded 3)) 3 ∧
    chooseVictim 2 3 probing = some 3 ∧ chooseVictim 23 24 probing = none ∧
    ¬(probing.control.policy.nCONF ≤ 1 ∨ (probing.port 2).trip = true ∨ (probing.port 3).trip = true) ∧
    ((probing.modPort 3 fun r => { r with trip := true }).port 3).trip = true := by
  refine ⟨⟨by decide, by decide⟩, entries (by decide), fun z j => by simp [crowded, Vector.get], fun z h => ?_, ?_,
    ⟨6, evidence 2 3 1 (some 3), by decide, rfl⟩, by decide, by decide, by decide, by decide⟩
  · simp only [List.mem_cons, List.not_mem_nil, or_false] at h
    rcases h with rfl | rfl
    · exact ⟨by decide, optSound_probing, ⟨rfl, entries (by decide)⟩, entries (by decide)⟩
    · exact ⟨by decide, optSound_probing, ⟨rfl, entries (by decide)⟩, entries (by decide)⟩
  · exact (by decide : ¬ ∃ j, ∃ l ∈ (after (.catchRecord 3 2 5 0) (crowded 1)).evidence.slots.get j,
      l.victim = some 1)

/-- The eviction frees the evicted victim in SUSPECT, then the new victim turns SUSPECT; a LISTEN victim starts again. -/
theorem test_new_entry :
    (after (.catchRecord 3 2 5 0) ((crowded 1).modPort 1 fun r => { r with guard := .suspect })).reports.queue =
      [⟨100, .state 1 .suspect .forward .evidenceGone⟩, ⟨100, .state 3 .forward .suspect .evidence⟩] ∧
    ((after (.catchRecord 3 2 5 0) (probing.modPort 3 fun r => { r with guard := .listen, listen := 1 })).port 3).listen
      = 0 ∧
    (after (.catchRecord 24 23 5 0) (withOpt 5 (dueProbe 23 []) (ready.modPort 24 fun r => { r with trip := true }))
      ).reports.queue = [⟨100, .ploop 23 24 2⟩] := by decide

/-- The sighting that reaches nCONF 2, from each blockable state of the victim, in MANAGED and in REST. -/
theorem witness_ConfirmationBlocksTheVictim (g : GuardState) (h : g.blockable = true) (m : Mode)
    (hm : m = .managed ∨ m = .rest) :
    let s := inMode m ((looped 1).modPort 3 fun r => { r with guard := g })
    s.control.loading = false ∧ s.control.mode = m ∧ s.glink.state = .up ∧ OptSound s ∧ LetSound s ∧
    (s.port 3).present = true ∧ (s.port 3).linkUp = true ∧ s.probe.opt.get 4 = some (dueProbe 2 []) ∧
    s.evidence.slots.get 0 = some (evidence 2 3 1 (some 3)) ∧
    (∀ k f, s.evidence.slots.get k = some f → f.egress = 2 → f.ingress = 3 → k = 0) ∧
    ((s.port 3).guard = .listen ∨ (s.port 3).guard = .forward ∨ (s.port 3).guard = .suspect ∨
      (s.port 3).guard = .throttle) ∧
    s.control.policy.nCONF = min 7 (1 + 1) := by
  have l : LetSound (looped 1) := ⟨rfl, entries (by decide)⟩
  have o : ∀ k f, (looped 1).evidence.slots.get k = some f → f.egress = 2 → f.ingress = 3 → k = 0 :=
    entries (by decide)
  have e : (looped 1).evidence.slots.get 0 = some (evidence 2 3 1 (some 3)) := by decide
  have q : (looped 1).probe.opt.get 4 = some (dueProbe 2 []) := by decide
  refine ⟨rfl, rfl, rfl, optSound_probing, l, ?_, ?_, q, e, o, ?_, rfl⟩ <;>
    rcases hm with rfl | rfl <;> cases g <;> first | decide | cases h

/-- Every case of R62's table, and a full LET. -/
theorem witness_VictimAndEvictionChoice :
    (ready.port 2).role = .access ∧ (ready.port 3).role = .access ∧ (ready.port 23).role ≠ .access ∧
    (ready.port 24).role ≠ .access ∧
    ∀ i, (({ ready with evidence := { ready.evidence with
      slots := Vector.replicate 16 (some (evidence 2 3 1 none)) } } : State).evidence.slots.get i).isSome = true := by
  decide

theorem witness_LinkUpJoinsTheOrder :
    ready.control.loading = false ∧ ready.glink.state = .up ∧ (inMode .rest ready).control.mode = .rest ∧
    (ready.port 27).present = true ∧ (ready.port 27).linkUp = false ∧ (ready.port 27).guard = .down ∧
    ((ready.modPort 27 fun r => { r with role := .unused, guard := .disabled }).port 27).guard ≠ .down := by decide

/-- Ports 0 and 2, in both guard cases; in `looped` the entries of ports 2 and 3 stand when port 0 goes down. -/
theorem witness_LinkDownCleansUp :
    (looped 1).control.loading = false ∧ (looped 1).glink.state = .up ∧ ((looped 1).port 0).linkUp = true ∧
    ((looped 1).port 0).present = true ∧ ((looped 1).port 0).guard = .forward ∧
    ready.control.loading = false ∧ ready.glink.state = .up ∧ (ready.port 0).present = true ∧
    (ready.port 0).linkUp = true ∧ (ready.port 0).guard ≠ .down ∧ (ready.port 0).guard ≠ .disabled ∧
    ((ready.modPort 0 fun r => { r with role := .unused, guard := .disabled }).port 0).guard ≠ .down := by decide

/-- Port 2 goes down: the evidence names port 3 and no other. -/
theorem witness_LinkDownCleansUp_gone :
    let s := looped 1
    let t := after (.link 2 false) s
    OptSound s ∧ LetSound s ∧ (s.port 2).linkUp = true ∧ (s.port 2).present = true ∧ (s.port 2).guard = .forward ∧
    ∀ v, v ∈ [(3 : Port)] ↔
      (∃ j l, s.evidence.slots.get j = some l ∧ (l.egress = 2 ∨ l.ingress = 2) ∧ l.victim = some v) ∧ ¬ Named t v := by
  refine ⟨optSound_probing, ⟨rfl, entries (by decide)⟩, by decide, by decide, by decide, ?_⟩
  exact (by decide : ∀ v : Port, v ∈ [(3 : Port)] ↔
    (∃ j, ∃ l ∈ (looped 1).evidence.slots.get j, (l.egress = 2 ∨ l.ingress = 2) ∧ l.victim = some v) ∧
      ¬ ∃ j, ∃ l ∈ (after (.link 2 false) (looped 1)).evidence.slots.get j, l.victim = some v)

theorem test_link_down_frees :
    (after (.link 2 false) (suspected .suspect 0)).reports.queue =
      [⟨100, .state 2 .forward .down .linkDown⟩, ⟨100, .state 3 .suspect .forward .evidenceGone⟩] ∧
    ((after (.link 2 false) (suspected .blocked 0)).port 3).guard = .listen ∧
    ((after (.link 2 false) (suspected .blocked 1)).port 3).guard = .blocked := by decide

theorem test_link_down_keeps :
    let t := after (.link 0 false) (looped 1)
    t.evidence.slots.get 0 = some (evidence 2 3 1 (some 3)) ∧ t.probe.opt.get 4 = some (dueProbe 2 []) := by decide

theorem witness_RecordsWithoutABlock :
    ready.control.loading = false ∧ ready.glink.state = .up ∧ (ready.port 27).linkUp = false ∧
    (28 : PortField).toNat = 28 ∧ (31 : PortField).toNat = 31 ∧ decodeRecord 0x2100_0000_0000_0000 = none ∧
    ready.glink.rx = .hunt ∧ ({ ready.glink with rx := .receiving [] } : GuardLink).rx = .receiving [] ∧
    [true].length = 1 ∧ (List.replicate 63 true).length = 63 ∧ ready.glink.outstanding = none := by decide

theorem witness_ValidRecordReturnsTheLink :
    (inLink .unresponsive ready).control.loading = false ∧ (inLink .unresponsive ready).glink.state = .unresponsive := by
  decide

/-- Ports 0 and 27, outside START, in START but out of the sweep, and in a sweep with another port; the link status
equal to the flag and not; `exec` of the LINK record answers a next state by the frame of its command. -/
theorem witness_AckConfirmsTheSwitchState : ∀ p ∈ [(0 : Port), 27],
    let s := (outstanding (.setport 5) p ready).modPort p fun r => { r with inFlight := some .hold }
    let start : State := { s with control := { s.control with mode := .start, sweep := [p, 7] } }
    s.control.loading = false ∧ s.control.mode ≠ .start ∧ s.glink.state = .up ∧
    s.glink.outstanding = some ⟨.setport 5, p, true⟩ ∧ (s.port p).inFlight = some .hold ∧
    p ∉ (inMode .start s).control.sweep ∧ start.control.mode = .start ∧ p ∈ start.control.sweep ∧
    (∃ q ∈ start.control.sweep, q ≠ p) ∧ (s.port 0).linkUp = true ∧ (s.port 27).linkUp = false := by decide

theorem test_ack_in_sweep :
    let s := outstanding (.setport 27) 0 (inMode .start ready)
    let t : State := { s with control := { s.control with sweep := [0, 1] } }
    (after (.ack 0 true true) t).control.sweep = [1] ∧ (after (.ack 0 false true) t).control.sweep = [1] ∧
    (after (.ack 0 true true) t).control.mode = .start := by decide

theorem witness_RefusalMakesThePortAbsent : ∀ p ∈ [(0 : Port), 27],
    let s := outstanding (.setport 5) p ready
    let start : State := { s with control := { s.control with mode := .start, sweep := [p, 7] } }
    s.control.loading = false ∧ s.control.mode ≠ .start ∧ s.glink.state = .up ∧
    s.glink.outstanding = some ⟨.setport 5, p, true⟩ ∧ (s.port p).guard ≠ .disabled ∧
    start.control.mode = .start ∧ (∃ q ∈ start.control.sweep, q ≠ p) ∧
    p ∉ (inMode .start s).control.sweep := by decide

/-- The link status equal to the flag of port 2, or not: both are a level of `up`. -/
theorem witness_AckOfAProbe :
    let s := outstanding (.inject 5) 2 probing
    s.control.loading = false ∧ s.glink.state = .up ∧ OptSound s ∧ (s.port 2).linkUp = true ∧
    s.glink.outstanding = some ⟨.inject 5, 2, true⟩ ∧ s.probe.opt.get 4 = some (dueProbe 2 []) ∧
    ∀ j f, s.probe.opt.get j = some f → f.round = 5 → f.egress = 2 → j = 4 :=
  ⟨by decide, by decide, optSound_probing, by decide, by decide, by decide, one_probing⟩

theorem witness_SetportGrant :
    nextGrant (ready.modPort 27 fun r => { r with confirmed := none, pendingFlag := true }) = some (.setport 27) := by
  decide

/-- The part while pacing is on, with or without the allowance. -/
def paced (allowance : Bool) : State :=
  { ready with arbiter := { ready.arbiter with pacing := true, allowance := allowance } }

/-- A record of each class, a state for each of the four grants, the pointer at 27, and states that withhold
one. -/
theorem witness_GrantChoice :
    let one : Option SwitchState → SwitchState → PortRec := fun c w =>
      { startRecord factoryPolicy .access with confirmed := c, wanted := w }
    (classOf (one none .opened) = some .tightening ∧ classOf (one (some .hold) .opened) = some .loosening) ∧
    ready.control.loading = false ∧ ready.glink.outstanding = none ∧ ready.arbiter.pacing = false ∧
    classOf ((ready.setPort 0 (one (some .opened) .hold)).port 0) = some .tightening ∧
    (∀ q, classOf ((ready.setPort 0 (one (some .opened) .hold)).port q) = some .tightening → q = 0) ∧
    (∀ q, classOf (ready.port q) = none) ∧
    classOf ((ready.setPort 27 (one (some .hold) .opened)).port 27) = some .loosening ∧
    (∀ q, classOf ((ready.setPort 27 (one (some .hold) .opened)).port q) = some .loosening → q = 27) ∧
    (outstanding (.setport 0) 1 ready).glink.outstanding ≠ none ∧
    (paced false).arbiter.pacing = true ∧ (paced false).arbiter.allowance = false ∧
    (paced true).arbiter.pacing = true ∧ (paced true).arbiter.allowance = true ∧
    (paced true).control.loading = false ∧ (paced true).glink.outstanding = none := by decide

/-- A head of the list with the first and with only the last slot free, and with none free. -/
theorem witness_InjectGrant :
    let s := { ready with probe := { ready.probe with list := [2] } }
    let full := { s with probe := { s.probe with opt := Vector.replicate 32 (some (dueProbe 0 [])) } }
    let last := { s with probe := { s.probe with opt := full.probe.opt.set 31 none } }
    nextGrant s = some (.probe 2) ∧ s.probe.opt.get 0 = none ∧
    nextGrant full = some (.probe 2) ∧ (∀ i, (full.probe.opt.get i).isSome = true) ∧
    nextGrant last = some (.probe 2) ∧ last.probe.opt.get 31 = none ∧
    ∀ j, j < 31 → (last.probe.opt.get j).isSome = true := by decide

theorem witness_LastBits : ∃ s t : State, s.glink.sending = some (.setport 0 .hold) ∧
    (OutRecord.setport 0 .hold).isCommand = true ∧ t.glink.sending = some (.strobe 0) :=
  ⟨{ ready with glink := { ready.glink with sending := some (.setport 0 .hold) } },
    { ready with glink := { ready.glink with sending := some (.strobe 0) } }, rfl, rfl, rfl⟩

/-- The second timeout of a run while UP, and any while UNRESPONSIVE. -/
theorem witness_TimeoutEndsTheCommand :
    let s := outstanding (.inject 5) 2 { probing with arbiter := { probing.arbiter with faultRun := 1 } }
    s.arbiter.faultRun + 1 < 3 ∧ (inLink .unresponsive s).glink.state = .unresponsive ∧
    (outstanding (.setport 26) 27 s).glink.outstanding = some ⟨.setport 26, 27, true⟩ ∧
    s.glink.outstanding = some ⟨.inject 5, 2, true⟩ ∧ OptSound s ∧ s.probe.opt.get 4 = some (dueProbe 2 []) ∧
    ∀ j f, s.probe.opt.get j = some f → f.round = 5 → f.egress = 2 → j = 4 :=
  ⟨by decide, rfl, rfl, rfl, optSound_probing, by decide, one_probing⟩

theorem witness_ThirdTimeoutStopsTheLink :
    let s := outstanding (.inject 5) 2 { probing with arbiter := { probing.arbiter with faultRun := 2 } }
    s.glink.state = .up ∧ s.arbiter.faultRun = 2 ∧ OptSound s ∧
    s.glink.outstanding = some ⟨.inject 5, 2, true⟩ := ⟨rfl, rfl, optSound_probing, rfl⟩

/-- A receiver in each state, the body one byte short of its length and at its last byte; and the last character of a
frame with a wrong check, at a line that is not free, of a kind that names nothing, and of a request. -/
theorem witness_CharactersMoveTheReceiver : ready.mgmt.complete = none ∧ ready.mgmt.rx = .hunt ∧
    (∀ x : LineRx, ({ ready with mgmt := { ready.mgmt with rx := x } } : State).mgmt.complete = none) ∧
    (1 : Byte).toNat = 1 ∧ (200 : Byte).toNat = 200 ∧ (201 : Byte).toNat = 201 ∧ (0 : Byte).toNat = 0 ∧
    ([7] : List Byte).length + 1 < 3 ∧ 2 ≤ ([7] : List Byte).length + 1 ∧
    (List.replicate 200 (0 : Byte)).length = 200 ∧
    (∃ hi b : Byte, hi ++ b ≠ frameCheck [0x0E]) ∧
    (∀ body, ∃ hi b : Byte, hi ++ b = frameCheck body) ∧
    (replying ready).mgmt.line ≠ .idle ∧ ready.mgmt.line = .idle ∧ ready.mgmt.reject = none ∧
    ¬(1 ≤ (0x10 : Byte).toNat ∧ (0x10 : Byte).toNat ≤ 15) ∧ requestOf (.unwatch []) = some (0x0E, []) ∧
    requestOf (.stat true [1]) = some (0x01, [1]) ∧ keyRead (.unwatch []) ready = ready ∧
    keyRead (.stat true [1]) ready = ready := by
  refine ⟨rfl, rfl, fun _ => rfl, rfl, rfl, rfl, rfl, by decide, by decide, by decide, ⟨0, 0, by decide⟩, fun body => ?_,
    by decide, rfl, rfl, by decide, rfl, rfl, rfl, rfl⟩
  refine ⟨(frameCheck body).extractLsb' 8 8, (frameCheck body).extractLsb' 0 8, ?_⟩
  ext i h
  simp only [BitVec.getElem_append, BitVec.getElem_extractLsb']
  split <;> rw [← BitVec.getLsbD_eq_getElem] <;> congr 1 <;> omega

theorem witness_BrokenFramesAreRejected :
    ({ ready with mgmt := { ready.mgmt with rx := .len } } : State).mgmt.rx ≠ .hunt ∧
    ready.mgmt.complete = none ∧ ready.mgmt.rx = .hunt ∧ (∀ body, frameCheck body + 1 ≠ frameCheck body) ∧
    (List.replicate 200 (0 : Byte)).length = 200 ∧ (List.replicate 199 (0 : Byte)).length + 1 = 200 ∧
    (replying ready).mgmt.line ≠ .idle ∧ ({ ready.mgmt with reject := some .trunc } : ManagementLine).reject ≠ none :=
  ⟨by decide, rfl, rfl, fun body h => by simp at h, by decide, by decide, by decide, by decide⟩

theorem witness_ReplyEndSendsTheReject : ∃ s : State, s.mgmt.line = .sending [0x8E, 6] ∧ s.mgmt.resetOwed = false ∧
    s.mgmt.reject = some .check ∧ ({ s with mgmt := { s.mgmt with reject := none } } : State).mgmt.reject = none :=
  ⟨{ ready with mgmt := { ready.mgmt with line := .sending [0x8E, 6], reject := some .check } },
    rfl, rfl, rfl, rfl⟩

/-- Kinds on both sides of 0x01 to 0x0F; PORTQ in START; PORTQ with one field too few. -/
theorem witness_RefusedRequestsHaveNoEffect :
    Carried [0x00] ready (taken [0x00] ready) ∧ Carried [0x10] ready (taken [0x10] ready) ∧
    ¬(1 ≤ (0x00 : Byte).toNat ∧ (0x00 : Byte).toNat ≤ 15) ∧ ¬(1 ≤ (0x10 : Byte).toNat ∧ (0x10 : Byte).toNat ≤ 15) ∧
    requestOf (.portq [3]) = some (0x02, [3]) ∧ Carried [0x02, 3] ready (taken [0x02, 3] ready) ∧
    Carried [0x02, 3] (inMode .start ready) (taken [0x02, 3] (inMode .start ready)) ∧
    ¬ servedIn (taken [0x02, 3] (inMode .start ready)).control.mode 0x02 ∧
    servedIn (taken [0x02, 3] ready).control.mode 0x02 ∧ ¬ lengthFits 0x02 [(3 : Byte)].length :=
  ⟨carried _ rfl rfl (by decide), carried _ rfl rfl (by decide), by decide, by decide, rfl,
    carried _ rfl rfl (by decide), carried _ rfl rfl (by decide), by simp [taken, inMode, servedIn], trivial,
    by simp [lengthFits]⟩

theorem witness_StatReportsAndClears :
    (∀ fields ∈ [([] : List Byte), [0], [1], [2]], ∀ key,
      Carried (0x01 :: fields) (sampleKey key ready) (taken (0x01 :: fields) (sampleKey key ready))) ∧
    1 < (2 : Byte).toNat ∧ ready.reports.watch = none ∧
    ({ ready.reports with watch := some (newWatch 27 1 1) } : ReportUnit).watch = some (newWatch 27 1 1) :=
  ⟨fun f h key => carried _ (by cases key <;> rfl) (by cases key <;> rfl) (by revert f; decide),
    by decide, rfl, rfl⟩

theorem witness_PortqReturnsThePorts : ∀ start ∈ [(27 : Byte), 28],
    Carried [0x02, start, 0] ready (taken [0x02, start, 0] ready) ∧
    servedIn (taken [0x02, start, 0] ready).control.mode 0x02 ∧ (start.toNat ≤ 27 ∨ 27 < start.toNat) :=
  fun _ _ => ⟨carried _ rfl rfl (by simp), trivial, by omega⟩

/-- An overflow acknowledged, with 32 and with 33 records left, at a FETCH of one record and of the most; a level at and
below QATT. -/
theorem witness_FetchResumptionAndAttn :
    let s : Nat → State := fun n =>
      { ready with
        reports :=
          { ready.reports with queue := List.replicate n ⟨0, .gap 0⟩, overflow := true, acknowledged := true, lost := 1 } }
    (∀ n, ∀ body ∈ [[(0x03 : Byte), 0], [0x03, 255], [0x04]],
      Carried body (s n) (taken body (s n)) ∧ servedIn (taken body (s n)).control.mode 0x03 ∧
      servedIn (taken body (s n)).control.mode 0x04) ∧
    ((s 33).reports.queue.drop 1).length ≤ 32 ∧ ¬ ((s 34).reports.queue.drop 1).length ≤ 32 ∧
    (s 32).reports.queue.length ≤ 32 ∧ 32 < (s 33).reports.queue.length ∧ (s 32).reports.overflow = true ∧
    ready.reports.overflow = false ∧ ready.control.policy.qatt = 1 ∧ (s 1).reports.queue.length = 1 ∧
    (∃ s : State, s.mgmt.line = .sending [0x8F, 0] ∧ s.mgmt.resetOwed = true) :=
  ⟨fun _ body h => ⟨carried _ rfl rfl (by revert body; decide), trivial, trivial⟩, by decide, by decide, by decide,
    by decide, rfl, rfl, by decide, by decide,
    ⟨{ ready with mgmt := { ready.mgmt with line := .sending [0x8F, 0], resetOwed := true } }, rfl, rfl⟩⟩

theorem witness_LessonRefillsTheCredits :
    Carried [0x0A] ready (taken [0x0A] ready) ∧ servedIn (taken [0x0A] ready).control.mode 0x0A :=
  ⟨carried _ rfl rfl (by decide), trivial⟩

/-- A trap that holds an earlier failure. -/
def trapped (s : State) : State := { s with trap := some ⟨.opt, 1, 50, false⟩ }

/-- Failing OPT entries in two slots, at an interval event with the trap empty and not; one alone; and none. -/
theorem witness_TrapTrapclrAndReset_scan :
    let bad : OptEntry := { dueProbe 2 [] with parityOk := false }
    let one := withOpt 31 bad ready
    let two := withOpt 0 bad one
    (∀ s ∈ [ready, one, two, trapped two], s.control.mode ≠ .start ∧ NothingDue s) ∧
    ready.trap = none ∧ two.trap = none ∧ (trapped two).trap = some ⟨.opt, 1, 50, false⟩ ∧
    two.probe.opt.get 0 = some bad ∧ one.probe.opt.get 31 = some bad ∧ two.probe.opt.get 31 = some bad := by
  have n := nothingDue_ready
  have x1 : ∀ i, ∀ e ∈ (withOpt 31 { dueProbe 2 [] with parityOk := false } ready).probe.opt.get i,
      e.parityOk = true → e.phase ≠ .out 100 := by decide
  have x2 : ∀ i, ∀ e ∈ (withOpt 0 { dueProbe 2 [] with parityOk := false }
      (withOpt 31 { dueProbe 2 [] with parityOk := false } ready)).probe.opt.get i,
      e.parityOk = true → e.phase ≠ .out 100 := by decide
  refine ⟨fun s h => ?_, rfl, rfl, rfl, by decide, by decide, by decide⟩
  simp only [List.mem_cons, List.not_mem_nil, or_false] at h
  rcases h with rfl | rfl | rfl | rfl
  · exact ⟨by decide, n⟩
  · exact ⟨(by decide : Mode.managed ≠ .start), n.round, entries x1, n.ports, n.host, n.strobe⟩
  · exact ⟨(by decide : Mode.managed ≠ .start), n.round, entries x2, n.ports, n.host, n.strobe⟩
  · exact ⟨(by decide : Mode.managed ≠ .start), n.round, entries x2, n.ports, n.host, n.strobe⟩

/-- Two failing entries at one interval event: the stamp after the event, the lower slot, overflow set (R54). -/
theorem test_scan :
    let bad : OptEntry := { dueProbe 2 [] with parityOk := false }
    let t := after .intervalEvent (withOpt 0 bad (withOpt 31 bad ready))
    t.trap = some ⟨.opt, 0, 101, true⟩ ∧ t.reports.queue = [⟨101, .trap .opt 0 101⟩] ∧
    t.probe.opt.get 31 = none := by decide

/-- The lookup of a catch that meets the failing entry of its own probe. -/
theorem witness_TrapTrapclrAndReset_lookup :
    let s := withOpt 4 { dueProbe 2 [] with parityOk := false } ready
    s.control.loading = false ∧ s.glink.state = .up ∧ (s.port 3).present = true ∧ (s.port 3).linkUp = true ∧
    s.probe.opt.get 4 = some { dueProbe 2 [] with parityOk := false } ∧
    (∀ j f, j ≠ 4 → s.probe.opt.get j = some f → f.parityOk = true) ∧
    ∀ j f, j ≠ 4 → s.probe.opt.get j = some f → ¬(f.round = 5 ∧ f.egress = 2) := by
  have e : ∀ j, ∀ f ∈ (withOpt 4 { dueProbe 2 [] with parityOk := false } ready).probe.opt.get j,
      j ≠ 4 → f.parityOk = true ∧ ¬(f.round = 5 ∧ f.egress = 2) := by decide
  exact ⟨rfl, rfl, by decide, by decide, by decide, fun j f hj h => (entries e j f h hj).1,
    fun j f hj h => (entries e j f h hj).2⟩

/-- A port at the end of its hold that only a failing entry named victim, and a port in SUSPECT that another entry still
names. -/
theorem witness_TrapTrapclrAndReset_sweep :
    let s := withLet 15 (evidence 0 1 1 (some 0)) (withLet 0 { evidence 2 3 1 (some 3) with parityOk := false }
      ((ready.modPort 3 fun r => { r with guard := .blocked, holdDue := true }).modPort 0 fun r =>
        { r with guard := .suspect }))
    s.evidence.sweepOwed = false ∧
    s.evidence.slots.get 0 = some { evidence 2 3 1 (some 3) with parityOk := false } ∧
    (∀ j f, j ≠ 0 → s.evidence.slots.get j = some f → f.parityOk = true) ∧
    (s.port 3).holdDue = true ∧ (s.port 3).guard = .blocked ∧ (s.port 3).hold = 0 ∧ (s.port 0).guard = .suspect ∧
    (∀ q, q < 3 → (s.port q).throttleDue = false ∧ (s.port q).holdDue = false ∧ (s.port q).decayDue = false) ∧
    ((after (.holdExpiry 3) s).port 3).guard = .listen ∧ ((after (.holdExpiry 3) s).port 0).guard = .suspect := by
  have e : ∀ j, ∀ f ∈ (withLet 15 (evidence 0 1 1 (some 0))
      (withLet 0 { evidence 2 3 1 (some 3) with parityOk := false } ready)).evidence.slots.get j,
      j ≠ 0 → f.parityOk = true := by decide
  exact ⟨rfl, by decide, fun j f hj h => entries e j f h hj, by decide, by decide, by decide, by decide, by decide,
    by decide, by decide⟩

theorem witness_TrapTrapclrAndReset (b : Byte) (h : b = 0x05 ∨ b = 0x0F) :
    Carried [b] ready (taken [b] ready) ∧ servedIn (taken [b] ready).control.mode b :=
  ⟨carried _ rfl rfl (by simp), by rcases h with rfl | rfl <;> trivial⟩

/-- Every target, in AUTONOMOUS, MANAGED and REST; and quiet and not quiet for REST. -/
theorem witness_ModeRequestTable (b : Byte) (m : Mode) (h : m = .autonomous ∨ m = .managed ∨ m = .rest) :
    Carried [0x06, b] (inMode m ready) (taken [0x06, b] (inMode m ready)) ∧
    servedIn (taken [0x06, b] (inMode m ready)).control.mode 0x06 ∧
    (∀ p, ((ready.port p).guard = .down ∨ (ready.port p).guard = .forward ∨ (ready.port p).guard = .disabled) ∧
      (ready.port p).override = .noOverride) ∧ ready.reports.watch = none ∧
    ((ready.modPort 0 fun r => { r with override := .shut }).port 0).override ≠ .noOverride := by
  refine ⟨carried _ rfl rfl (by simp), ?_, by decide, rfl, by decide⟩
  rcases h with rfl | rfl | rfl
  · change (0x06 : Byte) ∉ _; decide
  · trivial
  · change (0x06 : Byte) ∉ _; decide

/-- One pair and sixteen, with a known and an unknown identifier. -/
theorem witness_SetpWritesClampedValues :
    let one : List Byte := [0x44, 0, 0, 10]
    let many : List Byte := (List.replicate 16 one).flatten
    (∀ body, body.length ≤ 65 → Carried body ready (taken body ready)) ∧
    (taken [] ready).control.mode = .managed ∧
    lengthFits 0x07 one.length ∧ lengthFits 0x07 many.length ∧ parsePairs one = some [(0x44, 10)] ∧
    namePairs [(0x44, 10)] = some [(0x44, .tHOLD0, 10)] ∧ parsePairs [0x48, 0, 0, 1] = some [(0x48, 1)] ∧
    namePairs [(0x48, 1)] = none :=
  ⟨fun _ h => carried _ rfl rfl (by omega), rfl, by simp [lengthFits], by simp [lengthFits], by decide, by decide,
    by decide, by decide⟩

/-- A list that ends at port 27, one that runs past it, one of 28 codes, and a code that names no role. -/
theorem witness_RolesChangesTheRoles :
    (∀ key body, body.length ≤ 30 → Carried body (sampleKey key ready) (taken body (sampleKey key ready))) ∧
    (taken [] (sampleKey true ready)).control.mode = .managed ∧ parseRoles [0] = some [.access] ∧
    (27 : Byte).toNat + [(0 : Byte)].length = 28 ∧ 28 < (28 : Byte).toNat + [(0 : Byte)].length ∧
    (List.replicate 28 (3 : Byte)).length = 28 ∧ parseRoles [4] = none :=
  ⟨fun key _ h => carried _ (by cases key <;> rfl) (by cases key <;> rfl) (by omega), rfl, by decide, by decide,
    by decide, by decide, by decide⟩

/-- Port 2 becomes TEACHER, and its removal frees port 3, the victim of its entry; no other port is freed. -/
theorem witness_RolesChangesTheRoles_gone :
    let t := taken [0x08, 2, 1] (looped 1)
    let new : Port → Role := fun p => if p = 2 then .teacher else (t.port p).role
    let changed : Port → Prop := fun p => new p ≠ (t.port p).role
    OptSound t ∧ LetSound t ∧ (∀ p, (t.port p).Fits) ∧
    ∀ c v, v ∈ (if c = 2 then [(3 : Port)] else []) ↔
      changed c ∧
      (∃ j l, t.evidence.slots.get j = some l ∧ (l.egress = c ∨ l.ingress = c) ∧ l.victim = some v ∧
        ∀ d, d < c → changed d → l.egress ≠ d ∧ l.ingress ≠ d) ∧
      ∀ j l, t.evidence.slots.get j = some l → l.victim = some v →
        ∃ d, d ≤ c ∧ changed d ∧ (l.egress = d ∨ l.ingress = d) := by
  intro t new changed
  have ch : ∀ c, changed c ↔ c = 2 := by
    intro c
    change (if c = 2 then Role.teacher else (ready.port c).role) ≠ (ready.port c).role ↔ c = 2
    revert c
    decide
  have one : ∀ j l, t.evidence.slots.get j = some l → l = evidence 2 3 1 (some 3) :=
    entries (P := fun _ l => l = evidence 2 3 1 (some 3)) (by decide)
  have here : t.evidence.slots.get 0 = some (evidence 2 3 1 (some 3)) := by decide
  refine ⟨optSound_probing, ⟨rfl, entries (by decide)⟩, fits_ready, fun c v => ?_⟩
  simp only [ch]
  constructor
  · intro h
    split at h
    · next hc =>
      subst hc
      obtain rfl : v = 3 := by simpa using h
      exact ⟨rfl, ⟨0, _, here, Or.inl rfl, rfl, fun d h1 h2 => absurd h2 (Fin.ne_of_lt h1)⟩,
        fun j l h1 _ => ⟨2, le_refl _, rfl, Or.inl (by rw [one j l h1]; rfl)⟩⟩
    · simp at h
  · rintro ⟨rfl, ⟨j, l, h1, _, h2, _⟩, _⟩
    rw [one j l h1] at h2
    cases h2
    simp

theorem test_roles_free :
    (after (.roles true [2, 1]) (suspected .suspect 0)).reports.queue =
      [⟨100, .state 3 .suspect .forward .evidenceGone⟩] ∧
    ((after (.roles true [2, 1]) (suspected .blocked 0)).port 3).guard = .listen ∧
    ((after (.roles true [2, 1]) (suspected .blocked 1)).port 3).guard = .blocked := by decide

theorem witness_OvrdSetsTheOverride :
    (∀ b c, Carried [0x09, b, c] ready (taken [0x09, b, c] ready)) ∧
    (taken [] ready).control.mode = .managed ∧ 27 < (28 : Byte).toNat ∧ 2 < (3 : Byte).toNat ∧ portByte 27 = 27 ∧
    Override.code .shut = 2 ∧ (ready.port 27).present = true ∧ (ready.port 27).role ≠ .unused ∧
    ((ready.modPort 27 fun r => { r with present := false }).port 27).present = false :=
  ⟨fun _ _ => carried _ rfl rfl (by simp), rfl, by decide, by decide, by decide, by decide, by decide, by decide,
    by decide⟩

theorem witness_StoreWritesAnArea :
    (∀ key b, Carried [0x0B, b] (sampleKey key ready) (taken [0x0B, b] (sampleKey key ready))) ∧
    (taken [] (sampleKey false ready)).control.mode = .managed ∧ 1 < (2 : Byte).toNat ∧ ready.settings.write = none ∧
    (startWrite .policy ready).settings.write = some (.policy factoryPolicy ready.settings.policyArea) ∧
    (startWrite .roles ready).settings.write = some (.roles ready.roleTable ready.settings.roleArea) :=
  ⟨fun key b => carried _ (by cases key <;> rfl) (by cases key <;> rfl) (by simp), rfl, by decide, rfl, rfl, rfl⟩

theorem witness_WatchRequestsAndSamples :
    (∀ body, body.length ≤ 5 → Carried body ready (taken body ready)) ∧
    servedIn (taken [] ready).control.mode 0x0C ∧ servedIn (taken [] ready).control.mode 0x0E ∧
    27 < (28 : Byte).toNat ∧ (27 : Byte).toNat ≤ 27 ∧ portByte 27 = 27 ∧ ready.reports.watch = none ∧
    (∃ s : State, s.reports.watch = some (newWatch 27 1 1) ∧ (newWatch 27 1 1).slot = none) ∧
    ({ newWatch 27 1 1 with slot := some 1 } : Watch).slot ≠ none :=
  ⟨fun _ h => carried _ rfl rfl (by omega), trivial, trivial, by decide, by decide, by decide, rfl,
    ⟨{ ready with reports := { ready.reports with watch := some (newWatch 27 1 1) } }, rfl, rfl⟩, by decide⟩

/-- A watch of port 1 with a queue of a given level. -/
def watching (w : Watch) (n : Nat) (o : Bool) : State :=
  { ready with
    reports :=
      { ready.reports with queue := List.replicate n ⟨0, .gap 0⟩, overflow := o, watch := some { w with port := 1 } } }

/-- A taken DIGEST of the watched port and of another, one short of the decimation and at it, with 31 and 32 records in
the queue and in overflow, with no end, with 2 samples left and with 1, and the slot full and empty. -/
theorem witness_WatchRequestsAndSamples_samples (w : Watch) (n : Nat) (o : Bool) :
    ∀ p, p = (1 : Port) ∨ p = 23 →
      DigestTaken p 100 (watching w n o) ∧ (watching w n o).reports.watch = some { w with port := 1 } ∧
      ((watching w n o).port p).trip = false ∧
      nextAverage p 10 (watching w n o) < 256 * ((watching w n o).rowAt p).ttrip := by
  have d : ∀ p, p = (1 : Port) ∨ p = 23 → DigestTaken p 100 ready := fun p h => by
    have := digestTaken_ready p h id fun x => ⟨rfl, rfl, rfl, rfl⟩
    rcases h with rfl | rfl <;> exact ⟨rfl, rfl, rfl, by decide, by decide, by decide, by decide⟩
  have k : ∀ p, p = (1 : Port) ∨ p = 23 → (ready.port p).trip = false ∧
      nextAverage p 10 ready < 256 * (ready.rowAt p).ttrip := by decide
  exact fun p h => ⟨⟨(d p h).running, (d p h).link, (d p h).current, (d p h).present, (d p h).up, (d p h).guarded,
    (d p h).fresh⟩, rfl, (k p h).1, (k p h).2⟩

/-- The last sample with the slot full goes on from the slot, and one that finds 32 records waiting is skipped (R173). -/
theorem test_samples :
    let w : Watch := { newWatch 1 1 1 with slot := some 5 }
    (after (.digest 1 100 10) (watching w 0 false)).reports.watch =
      some { newWatch 1 5 1 with slot := none } ∧
    (after (.digest 1 100 10) (watching (newWatch 1 0 1) 32 false)).reports.watch =
      some { newWatch 1 0 1 with skipped := 1 } := by decide

/-- Levels 63 and 64, and an overflow. -/
theorem witness_ReportIsAppendedOrDropped :
    let s : Nat → Bool → State := fun n o =>
      { ready with reports := { ready.reports with queue := List.replicate n ⟨0, .gap 0⟩, overflow := o } }
    (s 63 false).reports.queue.length < 64 ∧ 64 ≤ (s 64 false).reports.queue.length ∧
    (s 63 false).reports.overflow = false ∧ (s 64 true).reports.overflow = true := by decide

theorem witness_RecordsAndCharactersOnTheLines :
    (∃ w, encodeRecord (.digest 31 255 65535) = some w) ∧ (∃ w, encodeRecord (.catchRecord 0 27 4095 1) = some w) ∧
    (∃ w, encodeRecord (.link 27 false) = some w) ∧ (∃ w, encodeRecord (.ack 0 false true) = some w) ∧
    ready.glink.rx = .hunt ∧ ({ ready.glink with rx := .receiving [] } : GuardLink).rx = .receiving [] ∧
    ready.glink.sending = none ∧ ready.glink.waiting = none ∧
    ({ ready.glink with sending := some (.strobe 1), waiting := some (.setport 1 .hold) } : GuardLink).waiting =
      some (.setport 1 .hold) ∧
    (replying ready).mgmt.line = .sending [0x8E, 6] ∧ (∀ body, ready.mgmt.line ≠ .sending body) ∧
    (frameBytes [0x8E, 6])[0]? = some 0xC3 :=
  ⟨⟨_, rfl⟩, ⟨_, rfl⟩, ⟨_, rfl⟩, ⟨_, rfl⟩, rfl, rfl, rfl, rfl, rfl, rfl, fun _ => by simp [ready, State.reset], rfl⟩

/-- The receiver takes the 65 clocks of a DIGEST, and a sync after two data bits truncates (R106). -/
theorem test_record_clocks :
    rxRun .hunt (recordClocks 0x1170_2C05_DC00_0000) = ⟨.hunt, 0, [0x1170_2C05_DC00_0000]⟩ ∧
    rxRun .hunt (cutClocks [true, false]) = ⟨.receiving [], 1, []⟩ ∧
    (recordClocks 0x8000_0000_0000_0001).take 3 = [(true, false), (false, true), (false, false)] := by decide

/-- The character 0xC3: start bit, 1 1 0 0 0 0 1 1, stop bit. -/
theorem test_char_bits : charBits 0xC3 = [false, true, true, false, false, false, false, true, true, true] ∧
    charOfBits [false, true, false, false, false, false, false, false, false, false] = some (1, true) ∧
    ready.mtxdLevel 0 = true ∧ (replying ready).mtxdLevel 0 = false ∧ (replying ready).mtxdLevel 1 = true := by decide

/-- A step from `ready`, in which every invariant holds. -/
def waiting : State := { ready with pending := [.intervalEvent] }

theorem witness_step : ∃ s', step waiting = .next s' := ⟨_, rfl⟩

theorem witness_QueueAndLineKeepTheirForm : QueueFits waiting ∧ LineFits waiting :=
  ⟨⟨by decide, by decide, by decide⟩,
    ⟨rfl, fun _ => by simp [waiting, ready, State.reset], fun _ _ => by simp [waiting, ready, State.reset],
      fun _ _ => by simp [waiting, ready, State.reset], by decide, by decide⟩⟩

theorem witness_OrderListFollowsTheLinks : OrderFits waiting := ⟨by decide, by decide, by decide⟩

theorem witness_ProtectedPortsAreNeverBlocked : GuardFits waiting :=
  ⟨fits_ready, by decide, fun i e _ h => absurd h (no_evidence i e), by decide⟩

theorem witness_PolicyStaysInRange : PolicyFits waiting := by unfold PolicyFits; decide

theorem witness_TablesKeepTheirProperties : TablesFit waiting where
  guard := fits_ready
  nconf := by decide
  sorted := by decide
  listed := by decide
  fresh := by decide
  optPort := entries (by decide)
  optRound := entries (by decide)
  optOnce := fun i _ e _ h => (entries (P := fun _ _ => False) (by decide) i e h).elim
  noRound := by decide
  letCount := entries (by decide)
  letPort := entries (by decide)
  letOnce := fun i _ e _ h => absurd h (no_evidence i e)
  loading := by decide

theorem witness_MeterStaysInBounds : MeterFits waiting := ⟨by decide, by decide, by decide⟩

theorem witness_CountsBelongToTheirStates : CountsFit waiting :=
  ⟨by decide, by decide, by decide, by decide, by decide, by decide, by decide⟩

theorem witness_PendingFlagMeansASetportIsOwed : ChannelFits waiting where
  wanted := by decide
  flag := by decide
  absent := by decide
  marker := fun p h => absurd (by revert p; decide) h
  run := by decide
  loading := by decide
  waits := by decide
  single := fun a _ h => by cases (show (none : Option OutRecord) = some a from h)
  timed :=
    ⟨fun ⟨a, h, _⟩ => h.elim (fun h => by cases (show (none : Option OutRecord) = some a from h))
        (fun h => by cases (show (none : Option OutRecord) = some a from h)),
      fun ⟨o, h, _⟩ => by cases (show (none : Option Outstanding) = some o from h)⟩

theorem witness_OverridesOnlyInManaged : OverridesFit waiting := ⟨by decide, by decide⟩

end Sys2Proof.Tests
end

section
/-! SUPPORT. The part right after reset and after the Settings Store load: the record every port starts with, the
empty tables, and with them the invariants at their base (R1, R8, R15, R43, R57, R77, R142, R166, R176). -/

namespace Sys2Proof.Machine

/-! ### The start-up records -/

@[simp] theorem factoryRoles_get (p : Port) : factoryRoles.get p = factoryRole p := Vector.getElem_ofFn p.isLt

@[simp] theorem startPorts_get (q : Policy) (roles : Vector Role 28) (p : Port) :
    (startPorts q roles).get p = startRecord q (roles.get p) := Vector.getElem_ofFn p.isLt

/-- Right after reset a port has the start-up record of its factory role. -/
@[simp] theorem reset_port (p : Port) : State.reset.port p = startRecord factoryPolicy (factoryRole p) := by
  simp only [State.port, State.reset, startPorts_get, factoryRoles_get]

/-- At the end of the load a port has the start-up record of the role read for it. -/
@[simp] theorem loadDone_port (s : State) (p : Port) :
    (loadDone s).port p = startRecord s.settings.readPolicy (s.settings.readRoles.get p) := by
  simp only [State.port, loadDone, startPorts_get]

theorem factoryRole_guarded (p : Port) : factoryRole p ≠ .unused := by
  unfold factoryRole; split
  · decide
  · split <;> decide

@[simp] theorem reset_opt (i : Fin 32) : State.reset.probe.opt.get i = none := Vector.getElem_replicate i.isLt

@[simp] theorem reset_slots (i : Fin 16) : State.reset.evidence.slots.get i = none :=
  Vector.getElem_replicate i.isLt

/-- A start-up record's guard state agrees with its link flag, its role and its presence. -/
theorem startRecord_fits (q : Policy) (role : Role) : (startRecord q role).Fits := by
  cases role <;>
    exact ⟨by simp [startRecord, GuardState.linked], fun _ => rfl, by simp [startRecord], fun _ => rfl⟩

/-! ### The settings areas with no write in flight -/

theorem policyImage_idle {u : SettingsStore} (h : u.write = none) : u.policyImage = u.policyArea := by
  simp only [SettingsStore.policyImage, h]

theorem roleImage_idle {u : SettingsStore} (h : u.write = none) : u.roleImage = u.roleArea := by
  simp only [SettingsStore.roleImage, h]

/-! ### Each invariant right after reset -/

theorem queueFits_reset : QueueFits State.reset := ⟨by decide, by decide, fun _ => ⟨rfl, rfl⟩⟩

theorem orderFits_reset : OrderFits State.reset where
  once := List.nodup_nil
  member p := by simp [show State.reset.order = [] from rfl, startRecord]
  loading _ := rfl

theorem guardFits_reset : GuardFits State.reset where
  fits p := by rw [reset_port]; exact startRecord_fits _ _
  blocked p h := by
    rw [reset_port] at h
    simp only [startRecord, factoryRole_guarded p, if_false] at h
    cases h
  victim i e v h := by simp at h
  loading _ i := reset_slots i

theorem policyFits_reset : PolicyFits State.reset := by unfold PolicyFits; decide

theorem tablesFit_reset : TablesFit State.reset where
  guard := guardFits_reset.fits
  nconf := by decide
  sorted := List.Pairwise.nil
  listed p h := nomatch h
  fresh p h := nomatch h
  optPort i e h := by simp at h
  optRound i e h := by simp at h
  optOnce i j e f h := by simp at h
  noRound _ := ⟨rfl, reset_opt⟩
  letCount i e h := by simp at h
  letPort i e h := by simp at h
  letOnce i j e f h := by simp at h
  loading _ := ⟨rfl, rfl, rfl, reset_slots⟩

theorem meterFits_reset : MeterFits State.reset where
  average p := by rw [reset_port]; exact Nat.zero_le _
  credit p := by rw [reset_port]; exact Nat.le_refl _
  unused p h := by rw [reset_port] at h; exact absurd h (factoryRole_guarded p)

theorem countsFit_reset : CountsFit State.reset where
  strike p := by rw [reset_port]; exact Nat.zero_le _
  hold p := by rw [reset_port]; exact Nat.zero_le _
  holdState p _ := by rw [reset_port]; rfl
  listen p := by rw [reset_port]; exact Nat.zero_le _
  listenState p _ := by rw [reset_port]; rfl
  throttleState p _ := by rw [reset_port]; rfl
  decayState p _ := by rw [reset_port]; rfl

theorem channelFits_reset : ChannelFits State.reset where
  wanted p := by
    rw [reset_port]
    simp only [startRecord, factoryRole_guarded p, if_false]
    rfl
  flag p := by rw [reset_port]; rfl
  absent p _ := by rw [reset_port]; exact ⟨rfl, rfl⟩
  marker p h := absurd (by rw [reset_port]; rfl) h
  run := ⟨by decide, fun _ => by decide⟩
  loading _ := rfl
  waits _ := rfl
  single a b h := nomatch h
  timed := ⟨fun ⟨_, h, _⟩ => h.elim nofun nofun, nofun⟩

theorem overridesFit_reset : OverridesFit State.reset where
  managed _ p := by rw [reset_port]; rfl
  guarded p _ := by rw [reset_port]; rfl

theorem lineFits_reset : LineFits State.reset := ⟨rfl, nofun, nofun, nofun, nofun, nofun⟩

/-! ### The statements -/

/-- Settles O51: each invariant holds of the start-up records and the empty tables. -/
theorem invariantsHoldAfterReset : Obligations.InvariantsHoldAfterReset :=
  ⟨queueFits_reset, orderFits_reset, guardFits_reset, policyFits_reset, tablesFit_reset, meterFits_reset,
    countsFit_reset, channelFits_reset, overridesFit_reset, lineFits_reset⟩

/-- Settles O4: every port has its start-up record, the tables are empty, and the other values are read off. -/
theorem stateAfterReset : Obligations.StateAfterReset := by
  unfold Obligations.StateAfterReset
  refine ⟨fun p => ?_, ?_⟩
  · rw [reset_port]
    simp [startRecord]
  · refine ⟨rfl, rfl, rfl, rfl, rfl, rfl, rfl, rfl, rfl, reset_opt, rfl, rfl, rfl, rfl, reset_slots, ?_⟩
    repeat' apply And.intro
    all_goals rfl

/-- Settles O5: with no write in flight the read of an area is that of its cells, and every record is the start-up
record of the role read. -/
theorem loadAppliesBothAreas : Obligations.LoadAppliesBothAreas := by
  intro s loading idle
  have policy : s.settings.readPolicy =
      if s.settings.policyArea.passes policyCheck then s.settings.policyArea.contents.settle
      else factoryPolicy := by
    simp only [SettingsStore.readPolicy, policyImage_idle idle]
  have roles : s.settings.readRoles =
      if s.settings.roleArea.passes roleCheck then s.settings.roleArea.contents else factoryRoles := by
    simp only [SettingsStore.readRoles, roleImage_idle idle]
  have load : exec .settingsStoreLoad s = .next (loadDone s) := by
    show execSettingsStoreLoad s = _
    simp only [execSettingsStoreLoad, loading, if_true]
  dsimp only
  rw [← policy, ← roles]
  refine ⟨loadDone s, load, frame_loadDone s, rfl, fun p => ?_, ?_⟩
  · rw [loadDone_port]; rfl
  · simp only [loadDone, validityOf, policyImage_idle idle, roleImage_idle idle]

end Sys2Proof.Machine
end

section
/-! SUPPORT. The choice of a victim and of the entry a full table evicts (R61, R62). -/

namespace Sys2Proof.Machine

/-- The entry of slot `i` is evicted before that of slot `j`, or is the same: lowest count, then greatest age, then
lowest slot (R61). -/
def EvictedFirst (s : State) (i j : Fin 16) : Prop :=
  ∃ e f, s.evidence.slots.get i = some e ∧ s.evidence.slots.get j = some f ∧
    (e.count < f.count ∨
      (e.count = f.count ∧
        ((s.clock.stamp - f.firstSeen).toNat < (s.clock.stamp - e.firstSeen).toNat ∨
          ((s.clock.stamp - f.firstSeen).toNat = (s.clock.stamp - e.firstSeen).toNat ∧ i ≤ j))))

theorem EvictedFirst.refl {s : State} {i : Fin 16} {e : LetEntry} (h : s.evidence.slots.get i = some e) :
    EvictedFirst s i i := ⟨e, e, h, h, by simp⟩

theorem EvictedFirst.trans {s : State} {i j k : Fin 16} (h : EvictedFirst s i j) (h' : EvictedFirst s j k) :
    EvictedFirst s i k := by
  obtain ⟨e, f, hi, hj, a⟩ := h
  obtain ⟨f', g, hj', hk, b⟩ := h'
  obtain rfl : f = f' := Option.some.inj (hj.symm.trans hj')
  exact ⟨e, g, hi, hk, by omega⟩

/-- One step of the eviction search, with `best` the slot found so far. -/
def evictStep (s : State) (best : Option (Fin 16)) (i : Fin 16) : Option (Fin 16) :=
  match s.evidence.slots.get i with
  | none => best
  | some e =>
    match best with
    | none => some i
    | some j =>
      match s.evidence.slots.get j with
      | none => some i
      | some b => if evictsBefore s.clock.stamp e b then some i else some j

theorem evictChoice_eq (s : State) : evictChoice s = (List.finRange 16).foldl (evictStep s) none := rfl

/-- A step of the search takes the entry evicted first of the best so far and the next slot. -/
theorem evictStep_first {s : State} {i j : Fin 16} {e b : LetEntry} (below : j < i)
    (hj : s.evidence.slots.get j = some b) (hi : s.evidence.slots.get i = some e) :
    ∃ m, evictStep s (some j) i = some m ∧ (m = j ∨ m = i) ∧ EvictedFirst s m j ∧ EvictedFirst s m i := by
  have step : evictStep s (some j) i = if evictsBefore s.clock.stamp e b then some i else some j := by
    simp only [evictStep, hi, hj]
  by_cases h : evictsBefore s.clock.stamp e b = true
  · refine ⟨i, by rw [step, if_pos h], Or.inr rfl, ⟨e, b, hi, hj, ?_⟩, EvictedFirst.refl hi⟩
    simp only [evictsBefore, Bool.or_eq_true, Bool.and_eq_true, decide_eq_true_eq] at h
    omega
  · refine ⟨j, by rw [step, if_neg h], Or.inl rfl, EvictedFirst.refl hj, ⟨b, e, hj, hi, ?_⟩⟩
    simp only [evictsBefore, Bool.or_eq_true, Bool.and_eq_true, decide_eq_true_eq] at h
    omega

/-- The search over ascending slots of a full table ends at the entry evicted first. -/
theorem evictFold_first {s : State} (full : ∀ i, (s.evidence.slots.get i).isSome = true) (l : List (Fin 16))
    (j : Fin 16) (sorted : (j :: l).Pairwise (· < ·)) :
    ∃ m, l.foldl (evictStep s) (some j) = some m ∧ ∀ k ∈ j :: l, EvictedFirst s m k := by
  induction l generalizing j with
  | nil =>
    obtain ⟨b, hj⟩ := Option.isSome_iff_exists.mp (full j)
    exact ⟨j, rfl, by simpa using EvictedFirst.refl hj⟩
  | cons i l ih =>
    obtain ⟨b, hj⟩ := Option.isSome_iff_exists.mp (full j)
    obtain ⟨e, hi⟩ := Option.isSome_iff_exists.mp (full i)
    simp only [List.pairwise_cons, List.mem_cons, forall_eq_or_imp] at sorted
    obtain ⟨⟨below, belowRest⟩, next, rest⟩ := sorted
    obtain ⟨m, hm, which, mj, mi⟩ := evictStep_first below hj hi
    have mRest : ∀ k ∈ l, m < k := by
      rcases which with rfl | rfl
      · exact belowRest
      · exact next
    obtain ⟨n, hn, first⟩ := ih m (List.pairwise_cons.mpr ⟨mRest, rest⟩)
    simp only [List.mem_cons, forall_eq_or_imp] at first ⊢
    exact ⟨n, by rw [List.foldl_cons, hm, hn], first.1.trans mj, first.1.trans mi, first.2⟩

/-- A full table has an entry to evict, and it is the one evicted first. -/
theorem evictChoice_first {s : State} (full : ∀ i, (s.evidence.slots.get i).isSome = true) :
    ∃ m, evictChoice s = some m ∧ ∀ k, EvictedFirst s m k := by
  obtain ⟨e, h0⟩ := Option.isSome_iff_exists.mp (full 0)
  have start : evictStep s none 0 = some 0 := by simp only [evictStep, h0]
  obtain ⟨m, hm, first⟩ := evictFold_first full ((List.finRange 15).map Fin.succ) 0
    (by rw [← List.finRange_succ]; exact List.pairwise_lt_finRange 16)
  refine ⟨m, ?_, fun k => first k ?_⟩
  · rw [evictChoice_eq, List.finRange_succ, List.foldl_cons, start, hm]
  · rw [← List.finRange_succ]; exact List.mem_finRange k

/-- Settles O20: the table of R62 by the roles of the two ports, and R61's order kept along the search. -/
theorem victimAndEvictionChoice : Obligations.VictimAndEvictionChoice := by
  refine ⟨fun s x y => ?_, fun s full => ?_⟩
  · unfold chooseVictim moreRecent
    by_cases hxy : x = y
    · subst hxy
      by_cases hx : (s.port x).role = .access <;> simp [hx]
    · by_cases hx : (s.port x).role = .access <;> by_cases hy : (s.port y).role = .access <;>
        simp [hxy, hx, hy]
  · obtain ⟨i, hi, first⟩ := evictChoice_first full
    obtain ⟨e, -, he, -⟩ := first i
    refine ⟨i, e, hi, he, fun j f hj => ?_⟩
    obtain ⟨e', f', he', hf', h⟩ := first j
    obtain rfl := Option.some.inj (he.symm.trans he')
    obtain rfl := Option.some.inj (hj.symm.trans hf')
    exact h

end Sys2Proof.Machine
end

section
/-! SUPPORT. A change of guard state as one equation, a wake event, and a valid inbound record on a link that is UP
(R79, R80, R106, R108, R117, R123, R150, R151). -/

namespace Sys2Proof.Machine

/-! ### A change of guard state -/

theorem goPlain_port (p q : Port) (g : GuardState) (c : StateCause) (s : State) :
    (goPlain p g c s).port q = if q = p then (s.port p).enter g 0 0 else s.port q := moveGuard_port ..

@[simp] theorem goPlain_reports (p : Port) (g : GuardState) (c : StateCause) (s : State) :
    (goPlain p g c s).reports = (report (.state p (s.port p).guard g c) s).reports := moveGuard_reports ..

@[simp] theorem goPlain_order (p : Port) (g : GuardState) (c : StateCause) (s : State) :
    (goPlain p g c s).order = s.order := frame_goPlain p g c s .order (by decide)
@[simp] theorem goPlain_control (p : Port) (g : GuardState) (c : StateCause) (s : State) :
    (goPlain p g c s).control = s.control := frame_goPlain p g c s .control (by decide)

/-- What the arbiter makes of a record whose wanted state is derived afresh (R79, R123). -/
theorem deriveWanted_flag (r : PortRec) :
    (r.deriveWanted.wanted = r.wanted → r.deriveWanted.pendingFlag = r.pendingFlag) ∧
      (r.deriveWanted.wanted ≠ r.wanted → r.deriveWanted.pendingFlag = pendingOf r.deriveWanted) := by
  unfold PortRec.deriveWanted
  simp only []
  split
  · exact ⟨fun _ => rfl, fun h => absurd rfl h⟩
  · next h => exact ⟨fun h' => absurd h' h, fun _ => rfl⟩

/-- The counts of the guard record are the same after the wanted state is derived afresh. -/
theorem deriveWanted_counts (r : PortRec) :
    r.deriveWanted.hold = r.hold ∧ r.deriveWanted.listen = r.listen ∧ r.deriveWanted.decay = r.decay ∧
      r.deriveWanted.throttleHold = r.throttleHold := by
  unfold PortRec.deriveWanted
  simp only []
  split <;> exact ⟨rfl, rfl, rfl, rfl⟩

/-- A record that has entered a guard state keeps what the Port Table, the meter and the arbiter own. -/
theorem enter_fields (r : PortRec) (g : GuardState) (n k : Nat) :
    ({ r with guard := g } : PortRec).Kept (r.enter g n k) := by
  obtain ⟨role, present, linkUp, override, lastF, avgE, creditB, trip, mark, confirmed, inFlight, linked⟩ :=
    deriveWanted_kept
      { r with
        guard := g, listen := 0, throttleHold := n, hold := k, decay := 0, throttleDue := false, holdDue := false,
        decayDue := false }
  exact ⟨role, present, linkUp, override, lastF, avgE, creditB, trip, mark, confirmed, inFlight, linked⟩

/-- A record that enters a guard state with no count of its own has entered it as the statements say. -/
theorem enter_entered (r : PortRec) (g : GuardState) : r.Entered g (r.enter g 0 0) := by
  obtain ⟨guard, listen, throttleHold, hold, decay, strike, -, -, -, wanted⟩ := enter_spec r g 0 0
  have kept := enter_fields r g 0 0
  have flag := deriveWanted_flag
    { r with
      guard := g, listen := 0, throttleHold := 0, hold := 0, decay := 0, throttleDue := false, holdDue := false,
      decayDue := false }
  exact
    { guard := guard
      counts := ⟨listen, throttleHold, hold, decay⟩
      wanted := wanted
      flagKept := flag.1
      flagMade := flag.2
      strike := strike
      meter := ⟨kept.lastF, kept.avgE, kept.creditB, kept.trip, kept.mark⟩
      table := ⟨kept.role, kept.present, kept.linkUp, kept.override⟩
      arbiter := ⟨kept.confirmed, kept.inFlight⟩ }

/-! ### A wake event -/

/-- A wake event has the effect the statements name. -/
theorem wake_eq_woken (k : WakeKind) (p : Port) (s : State) : wake k p s = s.woken k p := by
  unfold wake State.woken
  split
  · next rest =>
    have awake : (setMode .managed (.wake k p) s).reports = (report (.mode .rest .managed (.wake k p)) s).reports := by
      unfold setMode
      rw [rest]
      exact report_reports_congr _ rfl rfl
    rw [← awake]
    exact report_eq _ _
  · rfl

theorem woken_port (k : WakeKind) (p q : Port) (s : State) : (s.woken k p).port q = s.port q :=
  port_congr (by unfold State.woken; split <;> rfl) q

@[simp] theorem woken_order (k : WakeKind) (p : Port) (s : State) : (s.woken k p).order = s.order := by
  unfold State.woken; split <;> rfl

/-- A wake event after the link receiver has taken a record is one before it. -/
theorem woken_received (k : WakeKind) (p : Port) (s : State) :
    (s.received).woken k p = (s.woken k p).received := by
  unfold State.woken
  split
  · next h =>
    have awake : (report (.mode .rest .managed (.wake k p)) s.received).reports =
        (report (.mode .rest .managed (.wake k p)) s).reports := report_reports_congr _ rfl rfl
    rw [if_pos (show s.control.mode = .rest from h), awake]
    rfl
  · next h => rw [if_neg (show ¬ s.control.mode = .rest from h)]

/-! ### Inbound records on a link that is UP -/

/-- A valid record taken while the link is UP is disposed of, with the receiver back in HUNT. -/
theorem inbound_up {s : State} (k : InboundKind) (f : PortField) (act : State → State)
    (loaded : s.control.loading = false) (up : s.glink.state = .up) :
    inbound k f act s = act s.received := by
  have h : linkReturns f k (recordDone s) = s.received := by
    unfold linkReturns
    rw [if_neg (by rw [show (recordDone s).glink.state = .up from up]; decide)]
    rfl
  simp only [inbound, loaded, Bool.false_eq_true, if_false, h]

theorem exec_link_port {s : State} (p : Port) (up : Bool) (loaded : s.control.loading = false)
    (link : s.glink.state = .up) : exec (.link (portField p) up) s = .next (linkReport p up s.received) := by
  show execLink _ _ s = _
  simp only [execLink, inbound_up _ _ _ loaded link, portOf_portField]

theorem exec_ack_up {s : State} (f : PortField) (ok up : Bool) (loaded : s.control.loading = false)
    (link : s.glink.state = .up) : exec (.ack f ok up) s = .next (ackTaken f ok up s.received) := by
  show execAck _ _ _ s = _
  simp only [execAck, inbound_up _ _ _ loaded link]

/-- A report that tells nothing new, or of an absent port, has no effect (R3). -/
theorem linkReport_same {p : Port} {up : Bool} {s : State}
    (h : (s.port p).present = false ∨ (s.port p).linkUp = up) : linkReport p up s = s := by
  unfold linkReport
  rw [if_neg]
  rintro ⟨present, differs⟩
  rcases h with h | h
  · rw [h] at present; cases present
  · exact differs h

theorem linkReport_up {p : Port} {s : State} (present : (s.port p).present = true)
    (down : (s.port p).linkUp = false) : linkReport p true s = linkUpEvent p s := by
  unfold linkReport
  rw [if_pos ⟨present, by rw [down]; decide⟩, if_pos rfl]

theorem linkReport_down {p : Port} {s : State} (present : (s.port p).present = true)
    (up : (s.port p).linkUp = true) : linkReport p false s = linkDownEvent p s := by
  unfold linkReport
  rw [if_pos ⟨present, by rw [up]; decide⟩, if_neg (by decide)]

/-- A record cut short between two syncs is truncated, and the receiver begins again (R106). -/
theorem rxRun_cut {rx : LinkRx} {bits : List Bool} (idle : rx = .hunt ∨ rx = .receiving [])
    (some1 : 1 ≤ bits.length) (short : bits.length ≤ 63) :
    rxRun rx (cutClocks bits) = ⟨.receiving [], 1, []⟩ := by
  have sync : rxClock rx true false = ⟨.receiving [], 0, []⟩ := by rcases idle with rfl | rfl <;> rfl
  have cut : rxClock (.receiving bits) true false = ⟨.receiving [], 1, []⟩ := by simp [rxClock, some1]
  have data := rxRun_data bits [] (by simp only [List.length_nil]; omega)
  rw [List.nil_append] at data
  rw [cutClocks, List.cons_append, rxRun_cons, sync, rxRun_append, data, rxRun_cons, cut]
  rfl

/-- Settles O23: each record has its own rule for the one count it raises, or finds nothing to change. -/
theorem recordsWithoutABlock : Obligations.RecordsWithoutABlock := by
  refine ⟨fun s p up loaded link same => ?_, fun s f b n up loaded link high => ?_, fun s w unknown => ?_,
    fun s bits idle some1 short => ?_, fun s f ok up loaded link stray => ?_⟩
  · rw [exec_link_port p up loaded link, linkReport_same (s := s.received) same]
  · constructor
    · show execDigest f b n s = _
      simp only [execDigest, inbound_up _ _ _ loaded link, portOf_none high]
      rfl
    · show execLink f up s = _
      simp only [execLink, inbound_up _ _ _ loaded link, portOf_none high]
      rfl
  · show execUnknownRecord w s = _
    simp only [execUnknownRecord, unknown]
    rfl
  · show execFramingError bits s = _
    simp only [execFramingError, rxRun_cut idle some1 short]
    rw [if_pos ⟨some1, Nat.lt_succ_of_le short⟩]
    rfl
  · rw [exec_ack_up f ok up loaded link]
    have taken : ackTaken f ok up s.received = strayAck (ackSeen s.received) := by
      unfold ackTaken
      split
      · rfl
      · next o ho =>
        refine if_neg fun ⟨running, port⟩ => ?_
        rcases stray o ho with h | h
        · rw [h] at running; cases running
        · exact h port
    rw [taken]
    rfl

end Sys2Proof.Machine
end

section
/-! SUPPORT. Evidence-gone for one port and for several, the checked reads and removals entry by entry, and what a
removal operation on the LET does to the table and to the ports (R53, R54, R67, R72, R73, R88, R97). -/

namespace Sys2Proof.Machine

/-! ### Evidence-gone for one port -/

/-- The record of a port after evidence-gone (R88, R97). -/
def PortRec.gone (r : PortRec) : PortRec :=
  if r.guard = .suspect then r.enter .forward 0 0
  else if r.guard = .blocked ∧ r.hold = 0 then r.enter .listen 0 0
  else r

theorem gone_suspect {r : PortRec} (h : r.guard = .suspect) : r.gone = r.enter .forward 0 0 := if_pos h

theorem gone_blocked {r : PortRec} (h : r.guard = .blocked) (h' : r.hold = 0) : r.gone = r.enter .listen 0 0 := by
  unfold PortRec.gone; rw [if_neg (by rw [h]; decide), if_pos ⟨h, h'⟩]

theorem gone_kept {r : PortRec} (h : ¬ r.Freed) : r.gone = r := by
  unfold PortRec.gone; rw [if_neg fun g => h (Or.inl g), if_neg fun g => h (Or.inr g)]

/-- Evidence-gone leaves a record that it does not act on again. -/
theorem gone_not_freed (r : PortRec) : ¬ r.gone.Freed := by
  by_cases h : r.Freed
  · have stands : r.gone.guard = .forward ∨ r.gone.guard = .listen := by
      rcases h with h | ⟨h, h'⟩
      · rw [gone_suspect h]; exact Or.inl (enter_spec ..).1
      · rw [gone_blocked h h']; exact Or.inr (enter_spec ..).1
    rintro (g | ⟨g, -⟩) <;> rw [g] at stands <;> simp at stands
  · rwa [gone_kept h]

@[simp] theorem gone_gone (r : PortRec) : r.gone.gone = r.gone := gone_kept (gone_not_freed r)

/-- Evidence-gone keeps every field that no guard event changes, and the strike. -/
theorem gone_fields (r : PortRec) : r.Kept r.gone ∧ r.gone.strike = r.strike := by
  unfold PortRec.gone
  split
  · next h => exact ⟨enter_kept 0 0 (by rw [h]; rfl), (enter_entered _ _).strike⟩
  · split
    · next h => exact ⟨enter_kept 0 0 (by rw [h.1]; rfl), (enter_entered _ _).strike⟩
    · exact ⟨PortRec.Kept.refl r, rfl⟩

/-- What a report of evidence-gone leaves depends on the Report Unit and the stamp alone. -/
theorem goneReport_congr (v : Port) (g : GuardState) (hold : Nat) {s t : State} (h : t.reports = s.reports)
    (h' : t.clock.stamp = s.clock.stamp) :
    (goneReport v g hold t).reports = (goneReport v g hold s).reports := by
  unfold goneReport
  repeat' split
  · exact report_reports_congr _ h h'
  · exact report_reports_congr _ h h'
  · exact h

@[simp] theorem goneReport_clock (v : Port) (g : GuardState) (hold : Nat) (s : State) :
    (goneReport v g hold s).clock = s.clock := by
  unfold goneReport
  repeat' split
  all_goals simp

/-- Evidence-gone for a port changes its record, and gives the STATE record the statements name. -/
theorem evidenceGone_port (p q : Port) (s : State) :
    (evidenceGone p s).port q = if q = p then (s.port p).gone else s.port q := by
  by_cases hs : (s.port p).guard = .suspect
  · simp only [evidenceGone, hs, goPlain_port, gone_suspect]
  · by_cases hb : (s.port p).guard = .blocked ∧ (s.port p).hold = 0
    · simp only [evidenceGone, hb, if_true, goPlain_port, gone_blocked]
    · have h : evidenceGone p s = s := by
        unfold evidenceGone
        split
        · next g => exact absurd g hs
        · next g => exact if_neg fun h => hb ⟨g, h⟩
        all_goals rfl
      rw [h, gone_kept (by rintro (g | g); exacts [hs g, hb g])]
      split
      · next e => rw [e]
      · rfl

@[simp] theorem evidenceGone_reports (p : Port) (s : State) :
    (evidenceGone p s).reports = (goneReport p (s.port p).guard (s.port p).hold s).reports := by
  unfold evidenceGone
  split
  · next g => simp [goneReport, g]
  · next g => by_cases h : (s.port p).hold = 0 <;> simp [goneReport, g, h]
  all_goals next g => simp [goneReport, g]

@[simp] theorem evidenceGone_clock (p : Port) (s : State) : (evidenceGone p s).clock = s.clock :=
  frame_evidenceGone p s .clock (by decide)

/-! ### Evidence-gone for several ports -/

/-- The reports of evidence-gone for several ports, found in the given guard states with the given holds. -/
def goneReports (guard : Port → GuardState) (hold : Port → Nat) (gone : List Port) (s : State) : State :=
  gone.foldl (fun u v => goneReport v (guard v) (hold v) u) s

theorem goneReports_congr (guard : Port → GuardState) (hold : Port → Nat) (gone : List Port) {s t : State}
    (h : t.reports = s.reports) (h' : t.clock.stamp = s.clock.stamp) :
    (goneReports guard hold gone t).reports = (goneReports guard hold gone s).reports := by
  induction gone generalizing s t with
  | nil => exact h
  | cons v l ih => exact ih (goneReport_congr v _ _ h h') (by rw [goneReport_clock, goneReport_clock, h'])

/-- A report of evidence-gone reads the hold of a BLOCKED port only. -/
theorem goneReport_hold (v : Port) {g : GuardState} {hold hold' : Nat} (h : g = .blocked → hold = hold') (s : State) :
    goneReport v g hold s = goneReport v g hold' s := by
  unfold goneReport
  by_cases b : g = .blocked
  · rw [h b]
  · simp only [b, false_and, if_false]

/-- The reports depend on the guard states of the listed ports, and on the holds of those in BLOCKED. -/
theorem goneReports_ext {guard guard' : Port → GuardState} {hold hold' : Port → Nat} {gone : List Port}
    (h : ∀ v ∈ gone, guard v = guard' v ∧ (guard' v = .blocked → hold v = hold' v)) (s : State) :
    goneReports guard hold gone s = goneReports guard' hold' gone s :=
  List.foldl_ext _ _ _ fun u v hv => by rw [(h v hv).1, goneReport_hold v (h v hv).2]

@[simp] theorem goneReports_clock (guard : Port → GuardState) (hold : Port → Nat) (gone : List Port) (s : State) :
    (goneReports guard hold gone s).clock = s.clock := by
  induction gone generalizing s with
  | nil => rfl
  | cons v l ih => exact (ih _).trans (goneReport_clock ..)

/-- Evidence-gone for each of the listed ports in turn. -/
def allGone (gone : List Port) (s : State) : State := gone.foldl (fun t p => evidenceGone p t) s

theorem frame_allGone (gone : List Port) (s : State) : OnlyChanges [.ports, .reports] s (allGone gone s) :=
  OnlyChanges.foldl (fun _ _ => frame_evidenceGone _ _) _ _

@[simp] theorem allGone_evidence (gone : List Port) (s : State) : (allGone gone s).evidence = s.evidence :=
  frame_allGone gone s .evidence (by decide)

theorem allGone_port (gone : List Port) (s : State) (q : Port) :
    (allGone gone s).port q = if q ∈ gone then (s.port q).gone else s.port q := by
  induction gone generalizing s with
  | nil => rfl
  | cons v l ih =>
    have next := ih (evidenceGone v s)
    rw [evidenceGone_port] at next
    refine next.trans ?_
    by_cases hq : q = v
    · subst hq; simp
    · simp [hq]

theorem allGone_reports {gone : List Port} (once : gone.Nodup) (s : State) :
    (allGone gone s).reports =
      (goneReports (fun v => (s.port v).guard) (fun v => (s.port v).hold) gone s).reports := by
  induction gone generalizing s with
  | nil => rfl
  | cons v l ih =>
    obtain ⟨fresh, rest⟩ := List.nodup_cons.mp once
    refine (ih rest (evidenceGone v s)).trans ?_
    rw [goneReports_ext (guard' := fun v => (s.port v).guard) (hold' := fun v => (s.port v).hold)]
    · exact goneReports_congr _ _ _ (evidenceGone_reports v s) (by simp)
    · intro w hw
      rw [evidenceGone_port, if_neg (by rintro rfl; exact fresh hw)]
      exact ⟨rfl, fun _ => rfl⟩

/-- Evidence-gone for the listed ports in turn is what the statements say of it. -/
theorem allGone_evidenceGone {gone : List Port} (once : gone.Nodup) (s : State) :
    EvidenceGone gone s (allGone gone s) where
  suspect v hv g := by rw [allGone_port, if_pos hv, gone_suspect g]; exact enter_entered _ _
  blocked v hv g h := by rw [allGone_port, if_pos hv, gone_blocked g h]; exact enter_entered _ _
  kept v hv := by
    rw [allGone_port]
    rcases hv with hv | hv
    · rw [if_neg hv]
    · rw [gone_kept hv, ite_self]
  reports := allGone_reports once s

/-- Evidence-gone speaks of the ports, the Report Unit and the stamp only. -/
theorem EvidenceGone.congr {gone : List Port} {s s' t : State} (h : EvidenceGone gone s t)
    (ports : ∀ p, s'.port p = s.port p) (reports : s'.reports = s.reports)
    (stamp : s'.clock.stamp = s.clock.stamp) : EvidenceGone gone s' t where
  suspect v := by rw [ports]; exact h.suspect v
  blocked v := by rw [ports]; exact h.blocked v
  kept v := by rw [ports]; exact h.kept v
  reports := by
    simp only [ports]
    exact h.reports.trans (goneReports_congr _ _ _ reports stamp).symm

/-- Each record of `t` is that of `s`, or what evidence-gone makes of it. -/
def GoneAtMost (s t : State) : Prop := ∀ p, t.port p = s.port p ∨ t.port p = (s.port p).gone

theorem GoneAtMost.of_ports {s t : State} (h : t.ports = s.ports) : GoneAtMost s t :=
  fun p => Or.inl (port_congr h p)

theorem GoneAtMost.trans {s t u : State} (h : GoneAtMost s t) (k : GoneAtMost t u) : GoneAtMost s u := by
  intro p
  rcases h p with h | h <;> rcases k p with k | k <;> rw [k, h] <;> simp

theorem goneAtMost_allGone (gone : List Port) (s : State) : GoneAtMost s (allGone gone s) := by
  intro p
  rw [allGone_port]
  split
  · exact Or.inr rfl
  · exact Or.inl rfl

/-- A record that evidence-gone does not act on stays. -/
theorem GoneAtMost.stays {s t : State} (h : GoneAtMost s t) {p : Port} (k : ¬ (s.port p).Freed) :
    t.port p = s.port p := by
  rcases h p with h | h
  · exact h
  · rw [h, gone_kept k]

theorem GoneAtMost.strike {s t : State} (h : GoneAtMost s t) (p : Port) : (t.port p).strike = (s.port p).strike := by
  rcases h p with h | h <;> rw [h]
  exact (gone_fields _).2

/-! ### The checked reads, entry by entry -/

@[simp] theorem trapFailure_probe (n : TableName) (i : Nat) (s : State) : (trapFailure n i s).probe = s.probe :=
  frame_trapFailure n i s .probe (by decide)

@[simp] theorem trapFailure_evidence (n : TableName) (i : Nat) (s : State) :
    (trapFailure n i s).evidence = s.evidence := frame_trapFailure n i s .evidence (by decide)

theorem dropOpt_get (i j : Fin 32) (s : State) :
    (dropOpt i s).probe.opt.get j = if j = i then none else s.probe.opt.get j := by
  simp only [dropOpt, trapFailure_probe, get_set]

theorem dropLet_get (i j : Fin 16) (s : State) :
    (dropLet i s).evidence.slots.get j = if j = i then none else s.evidence.slots.get j := by
  simp only [dropLet, trapFailure_evidence, get_set]

theorem foldl_dropOpt_get (l : List (Fin 32)) (j : Fin 32) (s : State) :
    (l.foldl (fun t i => dropOpt i t) s).probe.opt.get j = if j ∈ l then none else s.probe.opt.get j := by
  induction l generalizing s with
  | nil => rfl
  | cons i l ih => rw [List.foldl_cons, ih, dropOpt_get]; by_cases h : j = i <;> simp [h]

theorem foldl_dropLet_get (l : List (Fin 16)) (j : Fin 16) (s : State) :
    (l.foldl (fun t i => dropLet i t) s).evidence.slots.get j = if j ∈ l then none else s.evidence.slots.get j := by
  induction l generalizing s with
  | nil => rfl
  | cons i l ih => rw [List.foldl_cons, ih, dropLet_get]; by_cases h : j = i <;> simp [h]

/-- A read of the OPT leaves the entries that pass their parity check. -/
theorem readOpt_get (s : State) (i : Fin 32) (e : OptEntry) :
    (readOpt s).probe.opt.get i = some e ↔ s.probe.opt.get i = some e ∧ e.parityOk = true := by
  unfold readOpt
  rw [foldl_dropOpt_get]
  cases h : s.probe.opt.get i with
  | none => simp
  | some f =>
    simp only [List.mem_filter, List.mem_finRange, h, optFails, true_and]
    cases hp : f.parityOk
    · simp only [Bool.not_false, if_true, reduceCtorEq, Option.some.injEq, false_iff, not_and]
      rintro rfl; simp [hp]
    · simp only [Bool.not_true, Bool.false_eq_true, if_false, Option.some.injEq, iff_self_and]
      rintro rfl; exact hp

/-- A read of the LET leaves the entries that pass their parity check. -/
theorem readLet_get (s : State) (i : Fin 16) (e : LetEntry) :
    (readLet s).evidence.slots.get i = some e ↔ s.evidence.slots.get i = some e ∧ e.parityOk = true := by
  unfold readLet
  rw [foldl_dropLet_get]
  cases h : s.evidence.slots.get i with
  | none => simp
  | some f =>
    simp only [List.mem_filter, List.mem_finRange, h, letFails, true_and]
    cases hp : f.parityOk
    · simp only [Bool.not_false, if_true, reduceCtorEq, Option.some.injEq, false_iff, not_and]
      rintro rfl; simp [hp]
    · simp only [Bool.not_true, Bool.false_eq_true, if_false, Option.some.injEq, iff_self_and]
      rintro rfl; exact hp

theorem get_ofFn {α : Type} {n : Nat} (f : Fin n → α) (i : Fin n) : (Vector.ofFn f).get i = f i :=
  Vector.getElem_ofFn i.isLt

/-- A removal without a read leaves the entries that do not meet the condition. -/
theorem eraseOpt_get (c : OptEntry → Bool) (s : State) (i : Fin 32) (e : OptEntry) :
    (eraseOpt c s).probe.opt.get i = some e ↔ s.probe.opt.get i = some e ∧ c e = false := by
  simp only [eraseOpt, get_ofFn]
  cases s.probe.opt.get i with
  | none => simp
  | some f =>
    by_cases h : c f = true
    · simp only [h, if_true, reduceCtorEq, Option.some.injEq, false_iff, not_and]
      rintro rfl; simp [h]
    · simp only [h, Bool.false_eq_true, if_false, Option.some.injEq, iff_self_and]
      rintro rfl; simpa using h

theorem eraseLet_get (c : LetEntry → Bool) (s : State) (i : Fin 16) (e : LetEntry) :
    (eraseLet c s).evidence.slots.get i = some e ↔ s.evidence.slots.get i = some e ∧ c e = false := by
  simp only [eraseLet, get_ofFn]
  cases s.evidence.slots.get i with
  | none => simp
  | some f =>
    by_cases h : c f = true
    · simp only [h, if_true, reduceCtorEq, Option.some.injEq, false_iff, not_and]
      rintro rfl; simp [h]
    · simp only [h, Bool.false_eq_true, if_false, Option.some.injEq, iff_self_and]
      rintro rfl; simpa using h

theorem removeProbes_get (p : Port) (s : State) (i : Fin 32) (e : OptEntry) :
    (removeProbes p s).probe.opt.get i = some e ↔
      s.probe.opt.get i = some e ∧ e.parityOk = true ∧ e.egress ≠ p := by
  rw [removeProbes, eraseOpt_get, readOpt_get, and_assoc, decide_eq_false_iff_not]

/-- Where every OPT entry is sound, the removal of a port's entries is no more than that. -/
theorem removeProbes_sound {p : Port} {s : State} (h : OptSound s) :
    removeProbes p s = eraseOpt (fun e => decide (e.egress = p)) s := by
  rw [removeProbes, readOpt_sound h]

/-! ### The victim sweep and a removal operation -/

theorem settleSweep_get (s : State) (i : Fin 16) (e : LetEntry) :
    (settleSweep s).evidence.slots.get i = some e ↔
      s.evidence.slots.get i = some e ∧ (s.evidence.sweepOwed = true → e.parityOk = true) := by
  unfold settleSweep
  split
  · next owed =>
    refine Eq.to_iff (congrArg (· = some e) ?_) |>.trans
      ((readLet_get s i e).trans (and_congr_right fun _ => ⟨fun h _ => h, fun h => h owed⟩))
    exact congrArg (fun u => u.slots.get i) (allGone_evidence _ _)
  · next free => exact ⟨fun h => ⟨h, fun owed => absurd owed free⟩, fun h => h.1⟩

theorem goneAtMost_settleSweep (s : State) : GoneAtMost s (settleSweep s) := by
  unfold settleSweep
  split
  · refine GoneAtMost.trans ?_ (goneAtMost_allGone _ _)
    exact GoneAtMost.of_ports (frame_readLet s .ports (by decide))
  · exact GoneAtMost.of_ports rfl

/-- A removal operation leaves the entries that pass their parity check and do not meet the condition. -/
theorem withdraw_get (c : LetEntry → Bool) (s : State) (i : Fin 16) (e : LetEntry) :
    (withdraw c s).evidence.slots.get i = some e ↔
      s.evidence.slots.get i = some e ∧ e.parityOk = true ∧ c e = false := by
  have check (v : Port → Bool) (t : State) : (evidenceGoneCheck v t).evidence = t.evidence :=
    frame_evidenceGoneCheck v t .evidence (by decide)
  rw [withdraw, settleSweep_get, check, eraseLet_get, readLet_get]
  constructor
  · rintro ⟨⟨⟨h, ok⟩, h'⟩, -⟩; exact ⟨h, ok, h'⟩
  · rintro ⟨h, ok, h'⟩; exact ⟨⟨⟨h, ok⟩, h'⟩, fun _ => ok⟩

theorem goneAtMost_withdraw (c : LetEntry → Bool) (s : State) : GoneAtMost s (withdraw c s) := by
  unfold withdraw
  refine GoneAtMost.trans (t := eraseLet c (readLet s)) ?_
    ((goneAtMost_allGone _ _).trans (goneAtMost_settleSweep _))
  exact GoneAtMost.of_ports
    ((frame_eraseLet c _ .ports (by decide)).trans (frame_readLet s .ports (by decide)))

/-- Two ascending lists of the same ports are the same list. -/
theorem ascending_ext {l m : List Port} (hl : l.Pairwise (· < ·)) (hm : m.Pairwise (· < ·))
    (h : ∀ v, v ∈ l ↔ v ∈ m) : l = m := hl.eq_of_mem_iff hm h

theorem ascending_nodup {l : List Port} (h : l.Pairwise (· < ·)) : l.Nodup := h.imp fun lt => ne_of_lt lt

theorem allPorts_ascending : allPorts.Pairwise (· < ·) := List.pairwise_lt_finRange 28

/-- Where every LET entry is sound, a removal operation removes what meets the condition and gives evidence-gone, in
ascending order, to the victims of removed entries that no remaining entry names. -/
theorem withdraw_sound {c : LetEntry → Bool} {s : State} (sound : LetSound s) {gone : List Port}
    (ascending : gone.Pairwise (· < ·))
    (mem : ∀ v, v ∈ gone ↔
      (∃ i e, s.evidence.slots.get i = some e ∧ c e = true ∧ e.victim = some v) ∧ ¬ Named (eraseLet c s) v) :
    withdraw c s = allGone gone (eraseLet c s) := by
  have same : (allPorts.filter fun p =>
      ((s.letEntries.filter c).any fun e => decide (e.victim = some p)) && !(eraseLet c s).named p) = gone := by
    refine ascending_ext (allPorts_ascending.filter _) ascending fun v => ?_
    simp only [List.mem_filter, mem_allPorts, true_and, Bool.and_eq_true, List.any_eq_true, mem_letEntries,
      decide_eq_true_eq, Bool.not_eq_true', named_false, mem]
    refine and_congr_left fun _ => ⟨?_, ?_⟩
    · rintro ⟨e, ⟨⟨i, hi⟩, hc⟩, hv⟩; exact ⟨i, e, hi, hc, hv⟩
    · rintro ⟨i, e, hi, hc, hv⟩; exact ⟨e, ⟨⟨i, hi⟩, hc⟩, hv⟩
  rw [withdraw, readLet_sound sound]
  rw [settleSweep_clear, evidenceGoneCheck, same]
  · rfl
  · exact (congrArg EvidenceUnit.sweepOwed (frame_evidenceGoneCheck _ _ .evidence (by decide))).trans sound.1

end Sys2Proof.Machine
end

section
/-! SUPPORT. The link-up and link-down events and the absence of a port, each by the parts of the state it changes
(R5, R6, R7, R32, R42, R130), and the answers to a SETPORT and to an INJECT (R4, R45, R46, R113, R129, R143). -/

namespace Sys2Proof.Machine

/-! ### Link-up -/

/-- The record of a port at a link-up event: the flag is set, and DOWN is left for LISTEN (R5). -/
def PortRec.raised (r : PortRec) : PortRec :=
  if r.guard = .down then ({ r with linkUp := true } : PortRec).enter .listen 0 0 else { r with linkUp := true }

/-- A link-up event before its change of guard state: the part wakes, the flag is set, the port joins the order. -/
def linkRaised (p : Port) (s : State) : State :=
  { (s.woken .linkUp p).modPort p fun r => { r with linkUp := true } with order := appendOrder p s.order }

theorem linkRaised_port (p q : Port) (s : State) :
    (linkRaised p s).port q = if q = p then { s.port p with linkUp := true } else s.port q := by
  have h : (linkRaised p s).port q = ((s.woken .linkUp p).modPort p fun r => { r with linkUp := true }).port q :=
    port_congr rfl q
  rw [h, port_modPort, woken_port, woken_port]

theorem linkUpEvent_eq (p : Port) (s : State) :
    linkUpEvent p s =
      if (s.port p).guard = .down then goPlain p .listen .linkUp (linkRaised p s) else linkRaised p s := by
  have guard : ((linkRaised p s).port p).guard = (s.port p).guard := by rw [linkRaised_port, if_pos rfl]
  rw [← guard]
  unfold linkUpEvent linkRaised
  simp only [wake_eq_woken, modPort_order, woken_order]

theorem linkUpEvent_port (p q : Port) (s : State) :
    (linkUpEvent p s).port q = if q = p then (s.port p).raised else s.port q := by
  rw [linkUpEvent_eq, PortRec.raised]
  split
  · rw [goPlain_port, linkRaised_port, linkRaised_port, if_pos rfl]
    split <;> rfl
  · exact linkRaised_port p q s

@[simp] theorem linkUpEvent_order (p : Port) (s : State) : (linkUpEvent p s).order = appendOrder p s.order := by
  rw [linkUpEvent_eq]
  split
  · rw [goPlain_order]; rfl
  · rfl

theorem linkUpEvent_control (p : Port) (s : State) : (linkUpEvent p s).control = (s.woken .linkUp p).control := by
  rw [linkUpEvent_eq]
  split
  · rw [goPlain_control]; rfl
  · rfl

theorem linkUpEvent_reports (p : Port) (s : State) :
    (linkUpEvent p s).reports =
      if (s.port p).guard = .down then
        (report (.state p .down .listen .linkUp) (s.woken .linkUp p)).reports
      else (s.woken .linkUp p).reports := by
  rw [linkUpEvent_eq]
  split
  · next h =>
    rw [goPlain_reports, linkRaised_port, if_pos rfl, h]
    exact report_reports_congr _ rfl rfl
  · rfl

/-- Settles O21: the report is a link-up event of the port. -/
theorem linkUpJoinsTheOrder : Obligations.LinkUpJoinsTheOrder := by
  intro s p loaded link present down
  have woken := woken_received .linkUp p s
  have kept : (s.port p).raised.strike = (s.port p).strike ∧ (s.port p).raised.avgE = (s.port p).avgE ∧
      (s.port p).raised.creditB = (s.port p).creditB ∧ (s.port p).raised.trip = (s.port p).trip ∧
      (s.port p).raised.linkUp = true := by
    unfold PortRec.raised
    split
    · have e := enter_entered ({ s.port p with linkUp := true } : PortRec) .listen
      obtain ⟨-, avgE, creditB, trip, -⟩ := e.meter
      exact ⟨e.strike, avgE, creditB, trip, e.table.2.2.1⟩
    · exact ⟨rfl, rfl, rfl, rfl, rfl⟩
  obtain ⟨strike, avgE, creditB, trip, up⟩ := kept
  have self : (linkUpEvent p s.received).port p = (s.port p).raised := by
    rw [linkUpEvent_port, if_pos rfl]; rfl
  refine ⟨linkUpEvent p s.received, ?_, ?_, ?_, ?_, ?_, ?_, ?_, ?_, ?_, ?_, ?_, ?_⟩
  · rw [exec_link_port p true loaded link]
    exact congrArg _ (linkReport_up (s := s.received) present down)
  · refine OnlyChanges.comp ?_ (frame_linkUpEvent p _) (by decide)
    exact (frame_set_glink s _).mono (by decide)
  · rw [self]; exact up
  · exact linkUpEvent_order p _
  · rw [linkUpEvent_control, woken]; rfl
  · intro guard
    rw [self, PortRec.raised, if_pos guard, linkUpEvent_reports, woken]
    obtain ⟨entered, listen, -⟩ := enter_spec ({ s.port p with linkUp := true } : PortRec) .listen 0 0
    refine ⟨entered, listen, ?_⟩
    rw [if_pos (show (s.received.port p).guard = .down from guard)]
    exact report_reports_congr _ rfl rfl
  · intro guard
    rw [self, PortRec.raised, if_neg guard, linkUpEvent_reports, woken]
    exact ⟨rfl, by rw [if_neg (show ¬ (s.received.port p).guard = .down from guard)]; rfl⟩
  · rw [self]; exact strike
  · rw [self]; exact avgE
  · rw [self]; exact creditB
  · rw [self]; exact trip
  · intro q hq
    rw [linkUpEvent_port, if_neg hq]; rfl

/-! ### Link-down -/

/-- The record of a port at a link-down event that takes it to `g`: a port in DISABLED or in `g` keeps its guard
record, any other enters `g`; the meter record is reset but for the last count (R6, R32). -/
def PortRec.lowered (g : GuardState) (bmax : Nat) (r : PortRec) : PortRec :=
  meterReset bmax
    (if r.guard = .disabled ∨ r.guard = g then { r with linkUp := false }
    else ({ r with linkUp := false } : PortRec).enter g 0 0)

/-- The fields of a record after a link-down event. -/
structure PortRec.Lowered (g : GuardState) (bmax : Nat) (r u : PortRec) : Prop where
  linkUp : u.linkUp = false
  guard : u.guard = if r.guard = .disabled then .disabled else g
  table : u.role = r.role ∧ u.present = r.present ∧ u.override = r.override ∧ u.strike = r.strike
  meter : u.avgE = 0 ∧ u.creditB = bmax ∧ u.trip = false ∧ u.throttleHold = 0 ∧ u.mark = .idle ∧ u.lastF = r.lastF
  arbiter : u.confirmed = r.confirmed ∧ u.inFlight = r.inFlight
  counts : r.guard ≠ .disabled → r.guard ≠ g → u.hold = 0 ∧ u.listen = 0 ∧ u.decay = 0

theorem lowered_spec (g : GuardState) (bmax : Nat) (r : PortRec) : r.Lowered g bmax (r.lowered g bmax) := by
  unfold PortRec.lowered
  split
  · next h =>
    refine ⟨rfl, ?_, ⟨rfl, rfl, rfl, rfl⟩, ⟨rfl, rfl, rfl, rfl, rfl, rfl⟩, ⟨rfl, rfl⟩, fun a b => ?_⟩
    · split
      · next h' => exact h'
      · next h' => exact h.resolve_left h'
    · exact absurd h (not_or.mpr ⟨a, b⟩)
  · next h =>
    obtain ⟨guard, counts, -, -, -, strike, meter, table, arbiter⟩ :=
      enter_entered ({ r with linkUp := false } : PortRec) g
    obtain ⟨listen, -, hold, decay⟩ := counts
    obtain ⟨role, present, linkUp, override⟩ := table
    refine ⟨linkUp, ?_, ⟨role, present, override, strike⟩, ⟨rfl, rfl, rfl, rfl, rfl, meter.1⟩, arbiter,
      fun _ _ => ⟨hold, listen, decay⟩⟩
    rw [if_neg fun h' => h (Or.inl h')]; exact guard

/-- A link-down event before its change of guard state: the flag falls and the port leaves the order list. -/
def linkLowered (p : Port) (s : State) : State :=
  { s.modPort p fun r => { r with linkUp := false } with order := removeOrder p s.order }

theorem linkLowered_port (p q : Port) (s : State) :
    (linkLowered p s).port q = if q = p then { s.port p with linkUp := false } else s.port q := by
  have h : (linkLowered p s).port q = (s.modPort p fun r => { r with linkUp := false }).port q := port_congr rfl q
  rw [h, port_modPort]

/-- A link-down event as far as its own port, the order list and its STATE record go, before the clean-ups (R6). -/
def portDown (g : GuardState) (c : StateCause) (p : Port) (s : State) : State :=
  (if (s.port p).guard = .disabled ∨ (s.port p).guard = g then linkLowered p s
    else goPlain p g c (linkLowered p s)).modPort p (meterReset (s.rowAt p).bmax)

/-- The clean-ups of a link-down event: the port's probes, its place in the probe list, its evidence (R6, R42, R70). -/
def portCleared (p : Port) (s : State) : State := withdraw (involves p) (dropProbe p (removeProbes p s))

theorem linkDownTo_eq (g : GuardState) (c : StateCause) (p : Port) (s : State) :
    linkDownTo g c p s = portCleared p (portDown g c p s) := by
  have guard : ((linkLowered p s).port p).guard = (s.port p).guard := by rw [linkLowered_port, if_pos rfl]
  have row : State.rowAt
      (if (s.port p).guard = .disabled ∨ (s.port p).guard = g then linkLowered p s
        else goPlain p g c (linkLowered p s)) p = s.rowAt p := by
    unfold State.rowAt
    split
    · rw [linkLowered_port, if_pos rfl]; rfl
    · rw [goPlain_control, goPlain_port, if_pos rfl, linkLowered_port, if_pos rfl,
        (enter_entered ({ s.port p with linkUp := false } : PortRec) g).table.1]
      rfl
  rw [portDown, ← row, ← guard]
  rfl

theorem frame_portDown (g : GuardState) (c : StateCause) (p : Port) (s : State) :
    OnlyChanges [.ports, .reports, .order] s (portDown g c p s) := by
  have low : OnlyChanges [.ports, .reports, .order] s (linkLowered p s) :=
    ((frame_modPort p _ s).mono (by decide)).comp (frame_set_order _ _) (by decide)
  refine OnlyChanges.comp ?_ (frame_modPort _ _ _) (by decide)
  split
  · exact low
  · exact low.comp (frame_goPlain _ _ _ _) (by decide)

theorem portDown_port (g : GuardState) (c : StateCause) (p q : Port) (s : State) :
    (portDown g c p s).port q = if q = p then (s.port p).lowered g (s.rowAt p).bmax else s.port q := by
  rw [portDown, port_modPort, PortRec.lowered]
  by_cases h : (s.port p).guard = .disabled ∨ (s.port p).guard = g
  · simp only [if_pos h, linkLowered_port, if_true]
    split <;> rfl
  · simp only [if_neg h, goPlain_port, linkLowered_port, if_true]
    split <;> rfl

@[simp] theorem portDown_order (g : GuardState) (c : StateCause) (p : Port) (s : State) :
    (portDown g c p s).order = removeOrder p s.order := by
  rw [portDown, modPort_order]
  split
  · rfl
  · rw [goPlain_order]; rfl

theorem portDown_reports (g : GuardState) (c : StateCause) (p : Port) (s : State) :
    (portDown g c p s).reports =
      if (s.port p).guard = .disabled ∨ (s.port p).guard = g then s.reports
      else (report (.state p (s.port p).guard g c) s).reports := by
  rw [portDown, modPort_reports]
  split
  · rfl
  · rw [goPlain_reports, linkLowered_port, if_pos rfl]
    exact report_reports_congr _ rfl rfl

theorem frame_portCleared (p : Port) (s : State) :
    OnlyChanges [.ports, .evidence, .trap, .reports, .probe] s (portCleared p s) :=
  (((frame_removeProbes p s).mono (by decide)).comp (frame_dropProbe p _) (by decide)).comp (frame_withdraw _ _)
    (by decide)

theorem appends_portCleared (p : Port) (s : State) : Appends s (portCleared p s) :=
  ((appends_removeProbes p s).comp (appends_dropProbe p _)).comp (appends_withdraw _ _)

theorem goneAtMost_portCleared (p : Port) (s : State) : GoneAtMost s (portCleared p s) := by
  refine GoneAtMost.trans (GoneAtMost.of_ports ?_) (goneAtMost_withdraw _ _)
  exact (frame_dropProbe p _ .ports (by decide)).trans (frame_removeProbes p s .ports (by decide))

theorem portCleared_probe (p : Port) (s : State) :
    (portCleared p s).probe = (dropProbe p (removeProbes p s)).probe :=
  frame_withdraw _ _ .probe (by decide)

theorem involves_false {p : Port} {e : LetEntry} : involves p e = false ↔ e.egress ≠ p ∧ e.ingress ≠ p := by
  simp [involves]

theorem involves_true {p : Port} {e : LetEntry} : involves p e = true ↔ e.egress = p ∨ e.ingress = p := by
  simp [involves]

theorem portCleared_opt (p : Port) (s : State) (i : Fin 32) (e : OptEntry) :
    (portCleared p s).probe.opt.get i = some e ↔
      s.probe.opt.get i = some e ∧ e.parityOk = true ∧ e.egress ≠ p := by
  rw [portCleared_probe]; exact removeProbes_get p s i e

theorem portCleared_slots (p : Port) (s : State) (i : Fin 16) (e : LetEntry) :
    (portCleared p s).evidence.slots.get i = some e ↔
      s.evidence.slots.get i = some e ∧ e.parityOk = true ∧ e.egress ≠ p ∧ e.ingress ≠ p := by
  have kept : (dropProbe p (removeProbes p s)).evidence = s.evidence :=
    (frame_dropProbe p _ .evidence (by decide)).trans (frame_removeProbes p s .evidence (by decide))
  rw [portCleared, withdraw_get, kept, involves_false]

theorem foldl_dropOpt_list (l : List (Fin 32)) (s : State) :
    (l.foldl (fun t i => dropOpt i t) s).probe.list = s.probe.list ∧
      (l.foldl (fun t i => dropOpt i t) s).probe.skipped = s.probe.skipped := by
  induction l generalizing s with
  | nil => exact ⟨rfl, rfl⟩
  | cons i l ih =>
    have drop : (dropOpt i s).probe.list = s.probe.list ∧ (dropOpt i s).probe.skipped = s.probe.skipped := by
      simp only [dropOpt, trapFailure_probe, and_self]
    obtain ⟨list, skipped⟩ := ih (dropOpt i s)
    exact ⟨list.trans drop.1, skipped.trans drop.2⟩

/-- Reading the OPT leaves the probe list and the count of skipped probes. -/
theorem readOpt_list (s : State) :
    (readOpt s).probe.list = s.probe.list ∧ (readOpt s).probe.skipped = s.probe.skipped := foldl_dropOpt_list _ s

theorem portCleared_list (p : Port) (s : State) :
    (portCleared p s).probe.list = s.probe.list.filter (fun q => decide (q ≠ p)) ∧
      (portCleared p s).probe.skipped = s.probe.skipped := by
  obtain ⟨list, skipped⟩ := readOpt_list s
  rw [portCleared_probe]
  simp only [dropProbe, removeProbes, eraseOpt, list, skipped, and_self]

/-- Where no entry of either table fails its parity check, the clean-ups give evidence-gone, in ascending order, to the
victims of the removed entries that no remaining entry names (R67, R70). -/
theorem portCleared_gone {p : Port} {s : State} (opt : OptSound s) (sound : LetSound s) {gone : List Port}
    (ascending : gone.Pairwise (· < ·))
    (mem : ∀ v, v ∈ gone ↔
      (∃ j l, s.evidence.slots.get j = some l ∧ (l.egress = p ∨ l.ingress = p) ∧ l.victim = some v) ∧
        ¬ Named (portCleared p s) v) :
    EvidenceGone gone s (portCleared p s) := by
  let w := dropProbe p (removeProbes p s)
  have evidence : w.evidence = s.evidence :=
    (frame_dropProbe p _ .evidence (by decide)).trans (frame_removeProbes p s .evidence (by decide))
  have slots (i : Fin 16) (e : LetEntry) : (portCleared p s).evidence.slots.get i = some e ↔
      (eraseLet (involves p) w).evidence.slots.get i = some e := by
    rw [portCleared_slots, eraseLet_get, evidence, involves_false]
    exact and_congr_right fun h => and_iff_right (sound.2 i e h)
  have named (v : Port) : Named (portCleared p s) v ↔ Named (eraseLet (involves p) w) v := by
    simp only [Named, slots]
  have cleared : portCleared p s = allGone gone (eraseLet (involves p) w) := by
    refine withdraw_sound (sound.congr evidence) ascending fun v => ?_
    rw [mem, named, evidence]
    simp only [involves_true]
  have frame : OnlyChanges [.probe, .evidence] s (eraseLet (involves p) w) := by
    refine OnlyChanges.comp ?_ (frame_eraseLet _ w) (by decide)
    refine OnlyChanges.comp ?_ (frame_dropProbe p _) (by decide)
    rw [removeProbes_sound opt]
    exact (frame_eraseOpt _ s).mono (by decide)
  rw [cleared]
  exact (allGone_evidenceGone (ascending_nodup ascending) _).congr
    (fun q => (port_congr (frame .ports (by decide)) q).symm) (frame .reports (by decide)).symm
    (congrArg IntervalClock.stamp (frame .clock (by decide))).symm

/-- A port that has gone down is none that evidence-gone acts on. -/
theorem lowered_not_freed {g : GuardState} (bmax : Nat) (r : PortRec) (hg : g = .down ∨ g = .disabled) :
    ¬ (r.lowered g bmax).Freed := by
  have guard := (lowered_spec g bmax r).guard
  rintro (h | ⟨h, -⟩) <;> rw [h] at guard <;> rcases hg with rfl | rfl <;> split at guard <;> cases guard

theorem linkDownTo_port {g : GuardState} (c : StateCause) (p : Port) (s : State) (hg : g = .down ∨ g = .disabled) :
    (linkDownTo g c p s).port p = (s.port p).lowered g (s.rowAt p).bmax := by
  have self : (portDown g c p s).port p = (s.port p).lowered g (s.rowAt p).bmax := by
    rw [portDown_port, if_pos rfl]
  rw [linkDownTo_eq]
  exact ((goneAtMost_portCleared p _).stays (by rw [self]; exact lowered_not_freed _ _ hg)).trans self

theorem linkDownTo_order (g : GuardState) (c : StateCause) (p : Port) (s : State) :
    (linkDownTo g c p s).order = removeOrder p s.order := by
  rw [linkDownTo_eq]
  exact (frame_portCleared p _ .order (by decide)).trans (portDown_order ..)

/-- Settles O22: the report is a link-down event of the port. -/
theorem linkDownCleansUp : Obligations.LinkDownCleansUp := by
  intro s p loaded link present up guard
  let d := portDown .down .linkDown p s.received
  have self : (linkDownEvent p s.received).port p = (s.port p).lowered .down (s.rowAt p).bmax :=
    linkDownTo_port .linkDown p s.received (Or.inl rfl)
  have down : linkDownEvent p s.received = portCleared p d := linkDownTo_eq ..
  obtain ⟨linkUp, lowGuard, ⟨-, -, override, strike⟩, ⟨avgE, creditB, trip, throttleHold, mark, lastF⟩, -, counts⟩ :=
    lowered_spec .down (s.rowAt p).bmax (s.port p)
  have frame : OnlyChanges [.ports, .reports, .order, .glink] s d :=
    ((frame_set_glink s _).mono (by decide)).comp (frame_portDown _ _ _ _) (by decide)
  have reports : d.reports =
      if (s.port p).guard = .disabled then s.reports
      else (report (.state p (s.port p).guard .down .linkDown) s).reports := by
    refine (portDown_reports ..).trans ?_
    by_cases h : (s.port p).guard = .disabled
    · rw [if_pos h]; exact if_pos (Or.inl h)
    · rw [if_neg h]
      refine (if_neg ?_).trans (report_reports_congr _ rfl rfl)
      exact not_or.mpr ⟨h, guard⟩
  have probe : d.probe = s.probe := frame .probe (by decide)
  have evidence : d.evidence = s.evidence := frame .evidence (by decide)
  refine ⟨linkDownEvent p s.received, ?_, ?_, ?_, ?_, ?_, ?_, ?_, ?_, ?_, ?_, ?_, ?_, ?_, ?_, ?_, ?_, ?_, ?_, ?_⟩
  · rw [exec_link_port p false loaded link]
    exact congrArg _ (linkReport_down (s := s.received) present up)
  · refine OnlyChanges.comp ?_ (frame_linkDownEvent p _) (by decide)
    exact (frame_set_glink s _).mono (by decide)
  · rw [self]; exact linkUp
  · exact linkDownTo_order ..
  · rw [self]; exact lowGuard
  · rw [self]; exact strike
  · rw [self]; exact override
  · rw [self]; exact avgE
  · rw [self]; exact creditB
  · rw [self]; exact trip
  · rw [self]; exact throttleHold
  · rw [self]; exact mark
  · rw [self]; exact lastF
  · intro enabled
    obtain ⟨hold, listen, decay⟩ := counts enabled guard
    rw [if_neg enabled] at reports
    have sent := (appends_portCleared p d).1
    rw [reports, ← down] at sent
    rw [self]
    exact ⟨hold, listen, decay, sent⟩
  · rw [down, (portCleared_list p d).1, probe]
  · rw [down, (portCleared_list p d).2, probe]
  · intro i e
    rw [down, portCleared_opt, probe]
  · intro i e
    rw [down, portCleared_slots, evidence]
  · intro opt sound gone ascending mem
    let u : State := { s with ports := d.ports, reports := d.reports }
    have ports (q : Port) : u.port q = d.port q := port_congr rfl q
    rw [down] at mem self ⊢
    refine ⟨u, ?_, fun q hq => ?_, ?_, fun h => ?_, fun h => ?_, ?_⟩
    · intro a ha
      cases a <;> first | rfl | (exfalso; revert ha; decide)
    · rw [ports, portDown_port, if_neg hq]; rfl
    · rw [ports, self, portDown_port, if_pos rfl]; rfl
    · exact reports.trans (if_pos h)
    · exact reports.trans (if_neg h)
    · refine (portCleared_gone (opt.congr probe) (sound.congr evidence) ascending ?_).congr ports rfl
        (congrArg IntervalClock.stamp (frame .clock (by decide))).symm
      rw [evidence]; exact mem

end Sys2Proof.Machine
end

section
/-! SUPPORT. The absence of a port and the answers to a SETPORT and to an INJECT (R4, R7, R45, R46, R113, R129, R130,
R131, R143). -/

namespace Sys2Proof.Machine

/-! ### The absence of a port -/

/-- The arbiter's part of an absence: nothing confirmed, in flight, pending or overridden is left (R130). -/
def PortRec.absented (r : PortRec) : PortRec :=
  { r with confirmed := none, inFlight := none, present := false, pendingFlag := false,
           override := .noOverride }.deriveWanted

theorem absence_eq (p : Port) (s : State) :
    absence p s =
      if (s.port p).linkUp then linkDownTo .disabled .absent p (s.modPort p PortRec.absented)
      else if (s.port p).guard = .disabled then s.modPort p PortRec.absented
      else goPlain p .disabled .absent (s.modPort p PortRec.absented) := rfl

/-- The fields of the record of a port that has become absent. -/
structure PortRec.Absent (r u : PortRec) : Prop where
  present : u.present = false
  override : u.override = .noOverride
  arbiter : u.confirmed = none ∧ u.inFlight = none ∧ u.pendingFlag = false
  strike : u.strike = r.strike
  role : u.role = r.role

theorem absented_absent (r : PortRec) :
    r.Absent r.absented ∧ r.absented.linkUp = r.linkUp ∧ r.absented.guard = r.guard := by
  have kept := deriveWanted_kept
    { r with confirmed := none, inFlight := none, present := false, pendingFlag := false, override := .noOverride }
  refine ⟨⟨kept.present, kept.override, ⟨kept.confirmed, kept.inFlight, ?_⟩, deriveWanted_strike _, kept.role⟩,
    kept.linkUp, deriveWanted_guard _⟩
  obtain ⟨same, changed⟩ := deriveWanted_flag
    { r with confirmed := none, inFlight := none, present := false, pendingFlag := false, override := .noOverride }
  by_cases h : r.absented.wanted = r.wanted
  · exact same h
  · exact (changed h).trans (by rw [pendingOf, kept.present]; rfl)

/-- An absent port stays absent as its record enters a guard state. -/
theorem PortRec.Absent.enter {r u : PortRec} (h : r.Absent u) (g : GuardState) : r.Absent (u.enter g 0 0) := by
  have e := enter_entered u g
  obtain ⟨role, present, -, override⟩ := e.table
  refine ⟨present.trans h.present, override.trans h.override,
    ⟨e.arbiter.1.trans h.arbiter.1, e.arbiter.2.trans h.arbiter.2.1, ?_⟩, e.strike.trans h.strike,
    role.trans h.role⟩
  by_cases w : (u.enter g 0 0).wanted = u.wanted
  · exact (e.flagKept w).trans h.arbiter.2.2
  · exact (e.flagMade w).trans (by rw [pendingOf, present, h.present]; rfl)

/-- An absent port stays absent through a link-down event. -/
theorem PortRec.Absent.lowered {r u : PortRec} (h : r.Absent u) (g : GuardState) (bmax : Nat) :
    r.Absent (u.lowered g bmax) := by
  have low : r.Absent ({ u with linkUp := false } : PortRec) :=
    ⟨h.present, h.override, h.arbiter, h.strike, h.role⟩
  have reset {x : PortRec} (k : r.Absent x) : r.Absent (meterReset bmax x) :=
    ⟨k.present, k.override, k.arbiter, k.strike, k.role⟩
  unfold PortRec.lowered
  split
  · exact reset low
  · exact reset (low.enter g)

/-- A port that becomes absent: its record is DISABLED without a link (R7, R130). -/
theorem absence_port (p : Port) (s : State) :
    (s.port p).Absent ((absence p s).port p) ∧ ((absence p s).port p).linkUp = false ∧
      ((absence p s).port p).guard = .disabled := by
  have self : (s.modPort p PortRec.absented).port p = (s.port p).absented := port_modPort_self ..
  obtain ⟨absent, linkUp, guard⟩ := absented_absent (s.port p)
  rw [absence_eq]
  split
  · rw [linkDownTo_port _ _ _ (Or.inr rfl), self]
    have low := lowered_spec .disabled ((s.modPort p PortRec.absented).rowAt p).bmax (s.port p).absented
    exact ⟨absent.lowered _ _, low.linkUp, low.guard.trans (ite_self _)⟩
  · next down =>
    split
    · next disabled =>
      rw [self]
      exact ⟨absent, linkUp.trans (Bool.eq_false_iff.mpr down), guard.trans disabled⟩
    · rw [goPlain_port, if_pos rfl, self]
      have e := enter_entered (s.port p).absented .disabled
      exact ⟨absent.enter _, (e.table.2.2.1.trans linkUp).trans (Bool.eq_false_iff.mpr down), e.guard⟩

theorem absence_order (p : Port) (s : State) :
    (absence p s).order = if (s.port p).linkUp then removeOrder p s.order else s.order := by
  rw [absence_eq]
  split
  · rw [linkDownTo_order, modPort_order]
  · split
    · rfl
    · rw [goPlain_order, modPort_order]

/-- A port that is not yet DISABLED gets its STATE record first (R7, R80). -/
theorem absence_reports {p : Port} {s : State} (enabled : (s.port p).guard ≠ .disabled) :
    (report (.state p (s.port p).guard .disabled .absent) s).reports.queue <+: (absence p s).reports.queue := by
  have self : ((s.modPort p PortRec.absented).port p).guard = (s.port p).guard := by
    rw [port_modPort_self]; exact (absented_absent _).2.2
  rw [absence_eq]
  split
  · have said : (portDown .disabled .absent p (s.modPort p PortRec.absented)).reports =
        (report (.state p (s.port p).guard .disabled .absent) s).reports := by
      rw [portDown_reports, self, if_neg (not_or.mpr ⟨enabled, enabled⟩)]
      exact report_reports_congr _ rfl rfl
    rw [linkDownTo_eq, ← said]
    exact (appends_portCleared p _).1
  · have said : (goPlain p .disabled .absent (s.modPort p PortRec.absented)).reports =
        (report (.state p (s.port p).guard .disabled .absent) s).reports := by
      rw [goPlain_reports, self]
      exact report_reports_congr _ rfl rfl
    rw [said]

/-! ### An ACK that ends a command -/

/-- The state once an ACK has ended the outstanding command, before its result (R113). -/
def State.answered (s : State) : State :=
  { s with
    arbiter := { s.arbiter with consecutive := 0, faultRun := 0 }
    glink := { s.glink with rx := .hunt, outstanding := none } }

theorem answered_port (s : State) (p : Port) : s.answered.port p = s.port p := rfl

/-- An ACK of the outstanding command's port ends it, once its last bit has been sent. -/
theorem exec_ack_ends {s : State} {k : OutstandingKind} {p : Port} (ok up : Bool)
    (loaded : s.control.loading = false) (link : s.glink.state = .up)
    (outstanding : s.glink.outstanding = some ⟨k, p, true⟩) :
    exec (.ack (portField p) ok up) s = .next (ackEnds ⟨k, p, true⟩ ok up s.answered) := by
  rw [exec_ack_up _ ok up loaded link]
  have taken : ackTaken (portField p) ok up s.received =
      ackEnds ⟨k, p, true⟩ ok up (endCommand (ackSeen s.received)) := by
    unfold ackTaken
    simp only [show s.received.glink.outstanding = some ⟨k, p, true⟩ from outstanding, and_self, if_true]
  rw [taken]
  rfl

/-- The last answer of the sweep aside, an answer in START takes the port out of the sweep (R143). -/
theorem sweepAnswered_more {p : Port} {s : State} (start : s.control.mode = .start) (mem : p ∈ s.control.sweep)
    (more : ∃ q ∈ s.control.sweep, q ≠ p) : sweepAnswered p s = leaveSweep p s := by
  unfold sweepAnswered
  rw [if_pos ⟨start, mem⟩]
  obtain ⟨q, hq, ne⟩ := more
  refine if_neg fun empty => ?_
  have left : q ∈ (leaveSweep p s).control.sweep := List.mem_filter.mpr ⟨hq, decide_eq_true ne⟩
  rw [empty] at left
  cases left

theorem sweepAnswered_other {p : Port} {s : State} (h : s.control.mode ≠ .start ∨ p ∉ s.control.sweep) :
    sweepAnswered p s = s := if_neg fun ⟨start, mem⟩ => h.elim (· start) (· mem)

theorem woken_start (k : WakeKind) (p : Port) (s : State) :
    ((s.woken k p).control.mode = .start ↔ s.control.mode = .start) ∧
      (s.woken k p).control.sweep = s.control.sweep := by
  unfold State.woken
  split
  · next h => exact ⟨by simp [h], rfl⟩
  · exact ⟨Iff.rfl, rfl⟩

/-- The effect of a link report neither begins nor ends START, and leaves its sweep. -/
theorem linkReport_start (p : Port) (up : Bool) (s : State) :
    ((linkReport p up s).control.mode = .start ↔ s.control.mode = .start) ∧
      (linkReport p up s).control.sweep = s.control.sweep := by
  unfold linkReport
  split
  · split
    · rw [linkUpEvent_control]; exact woken_start ..
    · rw [show (linkDownEvent p s).control = s.control from frame_linkDownEvent p s .control (by decide)]
      exact ⟨Iff.rfl, rfl⟩
  · exact ⟨Iff.rfl, rfl⟩

/-- Settles O25: the result is applied first, then the link status, then the sweep. -/
theorem ackConfirmsTheSwitchState : Obligations.AckConfirmsTheSwitchState := by
  intro s p previous w up loaded link outstanding inFlight u
  have confirmed : setportConfirmed p s.answered = u := by
    show s.answered.setPort p _ = u
    simp only [answered_port, inFlight, PortRec.recompute, pendingOf, ne_eq, Option.some.injEq, reduceCtorEq, not_false_eq_true, decide_true,
      Bool.and_true]
    rfl
  have ack : exec (.ack (portField p) true up) s = .next (sweepAnswered p (linkReport p up u)) := by
    rw [exec_ack_ends true up loaded link outstanding, ← confirmed]
    rfl
  obtain ⟨mode, sweep⟩ := linkReport_start p up u
  refine ⟨linkReport p up u, exec_link_port (s := u) p up loaded link, fun same => ?_, fun other => ?_,
    fun start mem more => ?_⟩
  · refine linkReport_same (Or.inr ?_)
    exact (congrArg PortRec.linkUp (port_setPort_self s p _)).trans same.symm
  · rw [ack, sweepAnswered_other]
    rw [sweep]
    exact other.imp_left fun h h' => h (mode.mp h')
  · rw [ack, sweepAnswered_more (mode.mpr start) (by rw [sweep]; exact mem) (by rw [sweep]; exact more)]
    simp only [leaveSweep, sweep]
    rfl

/-- Settles O26: the port becomes absent, and in START leaves the sweep. -/
theorem refusalMakesThePortAbsent : Obligations.RefusalMakesThePortAbsent := by
  intro s p previous up loaded link sweep outstanding
  let t := absence p s.answered
  have frame : OnlyChanges [.ports, .order, .reports, .trap, .evidence, .probe, .glink, .arbiter] s t :=
    ((frame_set_channel s _ _).mono (by decide)).comp (frame_absence p s.answered) (by decide)
  have control : t.control = s.control := frame .control (by decide)
  have channel : t.glink = s.answered.glink ∧ t.arbiter = s.answered.arbiter :=
    ⟨frame_absence p s.answered .glink (by decide), frame_absence p s.answered .arbiter (by decide)⟩
  obtain ⟨absent, down, disabled⟩ := absence_port p s.answered
  obtain ⟨confirmed, inFlight, flag⟩ := absent.arbiter
  have answer : sweepAnswered p t =
      { t with control :=
        if s.control.mode = .start then
          { s.control with sweep := s.control.sweep.filter fun q => decide (q ≠ p) }
        else s.control } := by
    by_cases start : s.control.mode = .start
    · rw [if_pos start]
      by_cases mem : p ∈ s.control.sweep
      · have more := (sweep.resolve_left (not_not_intro start)).resolve_left (not_not_intro mem)
        rw [← control] at start mem more ⊢
        exact sweepAnswered_more start mem more
      · have all : s.control.sweep.filter (fun q => decide (q ≠ p)) = s.control.sweep :=
          List.filter_eq_self.mpr fun q hq => decide_eq_true fun e => mem (e ▸ hq)
        rw [sweepAnswered_other (Or.inr (by rw [control]; exact mem)), all, ← control]
    · rw [sweepAnswered_other (Or.inl (by rw [control]; exact start)), if_neg start, ← control]
  refine ⟨_, (exec_ack_ends false up loaded link outstanding).trans (congrArg _ answer), ?_, rfl,
    absent.present, absent.override, down, disabled, confirmed, inFlight, flag, absent.strike, absent.role,
    fun enabled => ?_, absence_order p s.answered, ?_, ?_⟩
  · exact (frame.mono (by decide)).comp (frame_set_control t _) (by decide)
  · have said : (report (.state p (s.port p).guard .disabled .absent) s.answered).reports =
        (report (.state p (s.port p).guard .disabled .absent) s).reports := report_reports_congr _ rfl rfl
    rw [← said]
    exact absence_reports (s := s.answered) enabled
  · exact congrArg GuardLink.outstanding channel.1
  · exact channel.2

/-- Settles O27: the one entry of the probe is found, and the answer's result is applied before its link status. -/
theorem ackOfAProbe : Obligations.AckOfAProbe := by
  intro s p r i e up loaded link sound outstanding entry round egress one base sent refused
  have found : findOpt r p base = some i := findOpt_unique entry round egress one
  have read : readOpt base = base := readOpt_sound sound
  have acked : probeAcked r p base = sent := by
    unfold probeAcked
    simp only [read, found, show base.probe.opt.get i = some e from entry, writeOpt, ← sound i e entry]
    rfl
  have ended : probeEnded r p base = refused := by
    unfold probeEnded
    simp only [read, found]
    rfl
  have ack (ok : Bool) : exec (.ack (portField p) ok up) s =
      .next (linkReport p up (if ok then probeAcked r p base else probeEnded r p base)) :=
    exec_ack_ends ok up loaded link outstanding
  have ok := ack true
  have no := ack false
  rw [if_pos rfl, acked] at ok
  rw [if_neg (by decide), ended] at no
  refine ⟨ok.trans (exec_link_port (s := sent) p up loaded link).symm,
    no.trans (exec_link_port (s := refused) p up loaded link).symm, fun same => ⟨?_, ?_⟩⟩
  · rw [ok, linkReport_same (s := sent) (Or.inr same.symm)]
  · rw [no, linkReport_same (s := refused) (Or.inr same.symm)]

end Sys2Proof.Machine
end

section
/-! SUPPORT. A role change in its two steps: what each makes of the ports, of the two tables and of the report queue
(R10, R11, R12, R13, R67, R71, R88, R97). -/

namespace Sys2Proof.Machine

/-! ### Step 1: the role and the guard state of R11 -/

/-- The guard state that a role change gives a port (R11). -/
def ruledGuard (new : Role) (r : PortRec) : GuardState :=
  if new = r.role ∨ r.present = false then r.guard
  else if new = .unused then .disabled
  else if r.role = .unused then (if r.linkUp then .listen else .down)
  else if r.role = .access ∧ r.guard = .blocked then .listen
  else r.guard

/-- The guard state that step 1 of a role change has a changed port enter, if it has it enter one (R11). -/
def ruleMove (new : Role) (r : PortRec) : Option GuardState :=
  if r.present = false then none
  else if new = .unused then (if r.guard = .disabled then none else some .disabled)
  else if r.role = .unused then some (if r.linkUp then .listen else .down)
  else if r.role = .access ∧ r.guard = .blocked then some .listen
  else none

/-- The guard state of a changed port is the one it enters. -/
theorem ruledGuard_move {new : Role} {r : PortRec} (changed : new ≠ r.role) :
    ruledGuard new r = (ruleMove new r).getD r.guard := by
  unfold ruledGuard ruleMove
  by_cases present : r.present = false
  · simp [present]
  rw [if_neg (not_or.mpr ⟨changed, present⟩), if_neg present]
  split
  · split
    · next disabled => exact disabled.symm
    · rfl
  · split
    · rfl
    · split <;> rfl

/-- The role rule moves a port to a state that evidence-gone does not act on. -/
theorem ruleMove_some {new : Role} {r : PortRec} {g : GuardState} (h : ruleMove new r = some g) :
    g = .disabled ∨ g = .listen ∨ g = .down := by
  unfold ruleMove at h
  repeat' split at h
  all_goals simp_all

/-- A port whose guard state fits its role and presence moves to another state, if the role rule moves it. -/
theorem ruleMove_moves {new : Role} {r : PortRec} {g : GuardState} (fits : r.Fits) (h : ruleMove new r = some g) :
    g ≠ r.guard := by
  unfold ruleMove at h
  split at h
  · cases h
  · split at h
    · split at h
      · cases h
      · next enabled => rw [← Option.some.inj h]; exact Ne.symm enabled
    · split at h
      · next unused =>
        rw [fits.disabled.mpr (Or.inl unused), ← Option.some.inj h]
        split <;> decide
      · split at h
        · next blocked => rw [blocked.2, ← Option.some.inj h]; decide
        · cases h

/-- The record of a changed port after step 1 of a role change. -/
def PortRec.ruled (new : Role) (r : PortRec) : PortRec :=
  (ruleMove new r).elim { r with role := new } fun g => ({ r with role := new } : PortRec).enter g 0 0

theorem ruled_none {new : Role} {r : PortRec} (h : ruleMove new r = none) : r.ruled new = { r with role := new } := by
  simp only [PortRec.ruled, h, Option.elim_none]

theorem ruled_some {new : Role} {r : PortRec} {g : GuardState} (h : ruleMove new r = some g) :
    r.ruled new = ({ r with role := new } : PortRec).enter g 0 0 := by
  simp only [PortRec.ruled, h, Option.elim_some]

theorem ruled_guard {new : Role} {r : PortRec} (changed : new ≠ r.role) :
    (r.ruled new).guard = ruledGuard new r := by
  rw [ruledGuard_move changed]
  cases h : ruleMove new r with
  | none => rw [ruled_none h]; rfl
  | some g => rw [ruled_some h]; exact (enter_spec ..).1

/-- A port that step 1 leaves in BLOCKED keeps its hold. -/
theorem ruled_hold {new : Role} {r : PortRec} (changed : new ≠ r.role) (blocked : ruledGuard new r = .blocked) :
    (r.ruled new).hold = r.hold := by
  rw [ruledGuard_move changed] at blocked
  cases h : ruleMove new r with
  | none => rw [ruled_none h]
  | some g =>
    rw [h, Option.getD_some] at blocked
    have := ruleMove_some h
    simp [blocked] at this

/-- The fields of a record that the two steps of a role change leave to every port. -/
structure PortRec.RoleKept (r u : PortRec) : Prop where
  table : u.present = r.present ∧ u.linkUp = r.linkUp
  strike : u.strike = r.strike
  lastF : u.lastF = r.lastF

/-- The fields that a role change may set for a changed port only. -/
structure PortRec.RoleSame (r u : PortRec) : Prop where
  role : u.role = r.role
  override : u.override = r.override
  meter : u.creditB = r.creditB ∧ u.avgE = r.avgE ∧ u.trip = r.trip

/-- Step 1 sets the role and may move the guard state. -/
theorem ruled_fields (new : Role) (r : PortRec) :
    r.RoleKept (r.ruled new) ∧ ({ r with role := new } : PortRec).RoleSame (r.ruled new) := by
  cases h : ruleMove new r with
  | none => rw [ruled_none h]; exact ⟨⟨⟨rfl, rfl⟩, rfl, rfl⟩, ⟨rfl, rfl, rfl, rfl, rfl⟩⟩
  | some g =>
    rw [ruled_some h]
    obtain ⟨-, -, -, -, -, strike, ⟨lastF, avgE, creditB, trip, -⟩, ⟨role, present, linkUp, override⟩, -⟩ :=
      enter_entered ({ r with role := new } : PortRec) g
    exact ⟨⟨⟨present, linkUp⟩, strike, lastF⟩, ⟨role, override, creditB, avgE, trip⟩⟩

theorem roleStep1_eq (new : Role) (p : Port) (s : State) :
    roleStep1 new p s =
      (ruleMove new (s.port p)).elim (s.modPort p fun x => { x with role := new })
        fun g => goPlain p g .role (s.modPort p fun x => { x with role := new }) := by
  unfold roleStep1 ruleMove
  dsimp only
  repeat' split
  all_goals rfl

theorem roleStep1_port (new : Role) (p q : Port) (s : State) :
    (roleStep1 new p s).port q = if q = p then (s.port p).ruled new else s.port q := by
  rw [roleStep1_eq]
  cases h : ruleMove new (s.port p) with
  | none => rw [ruled_none h, Option.elim_none, port_modPort]
  | some g =>
    rw [ruled_some h, Option.elim_some, goPlain_port, port_modPort_self]
    split
    · rfl
    · next ne => exact port_modPort_ne _ _ ne

/-- The STATE record, if any, of the role rule for a port (R11, R80). -/
def ruleReport (g : GuardState) (p : Port) (r : PortRec) (s : State) : State :=
  if g = r.guard then s else report (.state p r.guard g .role) s

theorem ruleReport_congr (g : GuardState) (p : Port) (r : PortRec) {s t : State} (h : t.reports = s.reports)
    (h' : t.clock.stamp = s.clock.stamp) : (ruleReport g p r t).reports = (ruleReport g p r s).reports := by
  unfold ruleReport
  split
  · exact h
  · exact report_reports_congr _ h h'

@[simp] theorem ruleReport_clock (g : GuardState) (p : Port) (r : PortRec) (s : State) :
    (ruleReport g p r s).clock = s.clock := by
  unfold ruleReport; split <;> simp

/-- Step 1 reports a change of the guard state, for a port whose guard state fits its role. -/
theorem roleStep1_reports {new : Role} {p : Port} {s : State} (changed : new ≠ (s.port p).role)
    (fits : (s.port p).Fits) :
    (roleStep1 new p s).reports = (ruleReport (ruledGuard new (s.port p)) p (s.port p) s).reports := by
  rw [roleStep1_eq, ruledGuard_move changed, ruleReport]
  cases h : ruleMove new (s.port p) with
  | none => rw [Option.getD_none, if_pos rfl]; rfl
  | some g =>
    rw [Option.getD_some, if_neg (ruleMove_moves fits h), Option.elim_some, goPlain_reports, port_modPort_self]
    exact report_reports_congr _ rfl rfl

/-- Step 1 for the listed ports in turn. -/
def ruleAll (table : Port → Role) (l : List Port) (s : State) : State :=
  l.foldl (fun t p => roleStep1 (table p) p t) s

theorem frame_ruleAll (table : Port → Role) (l : List Port) (s : State) :
    OnlyChanges [.ports, .reports] s (ruleAll table l s) :=
  OnlyChanges.foldl (fun _ _ => frame_roleStep1 _ _ _) _ _

theorem ruleAll_port (table : Port → Role) {l : List Port} (once : l.Nodup) (s : State) (q : Port) :
    (ruleAll table l s).port q = if q ∈ l then (s.port q).ruled (table q) else s.port q := by
  induction l generalizing s with
  | nil => rfl
  | cons p l ih =>
    obtain ⟨fresh, rest⟩ := List.nodup_cons.mp once
    refine (ih rest (roleStep1 (table p) p s)).trans ?_
    rw [roleStep1_port]
    by_cases hq : q = p
    · subst hq; simp [fresh]
    · simp [hq]

/-- Step 1 reports the changes of the guard states, port by port. -/
theorem ruleAll_reports {table : Port → Role} {l : List Port} (once : l.Nodup) {s w : State}
    (changed : ∀ p ∈ l, table p ≠ (s.port p).role) (fits : ∀ p ∈ l, (s.port p).Fits)
    (reports : w.reports = s.reports) (stamp : w.clock.stamp = s.clock.stamp) :
    (ruleAll table l s).reports =
      (l.foldl (fun u p => ruleReport (ruledGuard (table p) (s.port p)) p (s.port p) u) w).reports := by
  induction l generalizing s w with
  | nil => exact reports.symm
  | cons p l ih =>
    obtain ⟨fresh, rest⟩ := List.nodup_cons.mp once
    have later (q : Port) (hq : q ∈ l) : (roleStep1 (table p) p s).port q = s.port q := by
      rw [roleStep1_port, if_neg (by rintro rfl; exact fresh hq)]
    have said : (ruleReport (ruledGuard (table p) (s.port p)) p (s.port p) w).reports =
        (roleStep1 (table p) p s).reports := by
      rw [roleStep1_reports (changed p (by simp)) (fits p (by simp))]
      exact ruleReport_congr _ _ _ reports stamp
    refine (ih (s := roleStep1 (table p) p s) rest (fun q hq => ?_) (fun q hq => ?_) said ?_).trans ?_
    · rw [later q hq]; exact changed q (List.mem_cons_of_mem _ hq)
    · rw [later q hq]; exact fits q (List.mem_cons_of_mem _ hq)
    · rw [ruleReport_clock, stamp]
      exact (congrArg IntervalClock.stamp (frame_roleStep1 _ _ s .clock (by decide))).symm
    · refine congrArg State.reports (List.foldl_ext _ _ _ fun u q hq => ?_)
      rw [later q hq]

/-! ### Step 2: the clean-ups and the meter -/

/-- The record of a changed port after step 2 of a role change (R10, R13). -/
def PortRec.reseated (q : Policy) (old new : Role) (r : PortRec) : PortRec :=
  meterRole q old new ({ r with override := .noOverride } : PortRec).deriveWanted

/-- The credit of a changed port (R13). -/
def roleCredit (q : Policy) (old new : Role) (credit : Nat) : Nat :=
  if old = .unused then (q.rowOf new).bmax else min credit (q.rowOf new).bmax

/-- The guard state of a record and the counts of its guard record but the throttle hold are the same. -/
structure PortRec.GuardSame (r u : PortRec) : Prop where
  guard : u.guard = r.guard
  hold : u.hold = r.hold
  listen : u.listen = r.listen
  decay : u.decay = r.decay

theorem PortRec.GuardSame.refl (r : PortRec) : r.GuardSame r := ⟨rfl, rfl, rfl, rfl⟩

theorem PortRec.GuardSame.trans {a b c : PortRec} (h : a.GuardSame b) (k : b.GuardSame c) : a.GuardSame c :=
  ⟨k.guard.trans h.guard, k.hold.trans h.hold, k.listen.trans h.listen, k.decay.trans h.decay⟩

theorem PortRec.GuardSame.freed {r u : PortRec} (h : r.GuardSame u) : u.Freed ↔ r.Freed := by
  simp only [PortRec.Freed, h.guard, h.hold]

/-- Evidence-gone acts alike on records of one guard state. -/
theorem PortRec.GuardSame.gone {r u : PortRec} (h : r.GuardSame u) : r.gone.GuardSame u.gone := by
  have entered (g : GuardState) : (r.enter g 0 0).GuardSame (u.enter g 0 0) := by
    obtain ⟨guard, listen, -, hold, decay, -⟩ := enter_spec r g 0 0
    obtain ⟨guard', listen', -, hold', decay', -⟩ := enter_spec u g 0 0
    exact ⟨guard'.trans guard.symm, hold'.trans hold.symm, listen'.trans listen.symm, decay'.trans decay.symm⟩
  unfold PortRec.gone
  simp only [h.guard, h.hold]
  repeat' split
  · exact entered _
  · exact entered _
  · exact h

theorem PortRec.RoleKept.refl (r : PortRec) : r.RoleKept r := ⟨⟨rfl, rfl⟩, rfl, rfl⟩

theorem PortRec.RoleKept.trans {a b c : PortRec} (h : a.RoleKept b) (k : b.RoleKept c) : a.RoleKept c :=
  ⟨⟨k.table.1.trans h.table.1, k.table.2.trans h.table.2⟩, k.strike.trans h.strike, k.lastF.trans h.lastF⟩

theorem PortRec.RoleSame.refl (r : PortRec) : r.RoleSame r := ⟨rfl, rfl, rfl, rfl, rfl⟩

theorem PortRec.RoleSame.trans {a b c : PortRec} (h : a.RoleSame b) (k : b.RoleSame c) : a.RoleSame c :=
  ⟨k.role.trans h.role, k.override.trans h.override, k.meter.1.trans h.meter.1, k.meter.2.1.trans h.meter.2.1,
    k.meter.2.2.trans h.meter.2.2⟩

theorem gone_roleKept (r : PortRec) : r.RoleKept r.gone ∧ r.RoleSame r.gone := by
  obtain ⟨kept, strike⟩ := gone_fields r
  exact ⟨⟨⟨kept.present, kept.linkUp⟩, strike, kept.lastF⟩,
    ⟨kept.role, kept.override, kept.creditB, kept.avgE, kept.trip⟩⟩

/-- A removal operation leaves a port what a role change of another port leaves it. -/
theorem GoneAtMost.role {s t : State} (h : GoneAtMost s t) (p : Port) :
    (s.port p).RoleKept (t.port p) ∧ (s.port p).RoleSame (t.port p) := by
  rcases h p with h | h <;> rw [h]
  · exact ⟨PortRec.RoleKept.refl _, PortRec.RoleSame.refl _⟩
  · exact gone_roleKept _

/-- The meter's part of a role change leaves the guard record but the throttle hold, and the Port Table's fields. -/
theorem meterRole_fields (q : Policy) {old new : Role} (r : PortRec) (changed : new ≠ old) :
    r.RoleKept (meterRole q old new r) ∧ r.GuardSame (meterRole q old new r) ∧
      (meterRole q old new r).role = r.role ∧ (meterRole q old new r).override = r.override ∧
      (meterRole q old new r).creditB = roleCredit q old new r.creditB := by
  unfold meterRole roleCredit
  by_cases unused : new = .unused
  · rw [if_pos unused, if_neg fun h => changed (unused.trans h.symm)]
    exact ⟨⟨⟨rfl, rfl⟩, rfl, rfl⟩, ⟨rfl, rfl, rfl, rfl⟩, rfl, rfl, rfl⟩
  · rw [if_neg unused]
    split <;> exact ⟨⟨⟨rfl, rfl⟩, rfl, rfl⟩, ⟨rfl, rfl, rfl, rfl⟩, rfl, rfl, rfl⟩

theorem reseated_fields (q : Policy) {old new : Role} (r : PortRec) (changed : new ≠ old) :
    r.RoleKept (r.reseated q old new) ∧ r.GuardSame (r.reseated q old new) ∧
      (r.reseated q old new).role = r.role ∧ (r.reseated q old new).override = .noOverride ∧
      (r.reseated q old new).creditB = roleCredit q old new r.creditB := by
  let x : PortRec := { r with override := .noOverride }
  have kept : x.Kept x.deriveWanted := deriveWanted_kept x
  obtain ⟨hold, listen, decay, -⟩ := deriveWanted_counts x
  obtain ⟨roleKept, guardSame, role, override, credit⟩ := meterRole_fields q x.deriveWanted changed
  exact ⟨PortRec.RoleKept.trans ⟨⟨kept.present, kept.linkUp⟩, deriveWanted_strike x, kept.lastF⟩ roleKept,
    PortRec.GuardSame.trans ⟨deriveWanted_guard x, hold, listen, decay⟩ guardSame, role.trans kept.role,
    override.trans kept.override, credit.trans (congrArg (roleCredit q old new) kept.creditB)⟩

/-- Step 2 of a role change: the clean-ups of the port's evidence and probes, then its record. -/
theorem roleStep2_eq (old new : Role) (p : Port) (s : State) :
    ∃ w, OnlyChanges [.probe, .trap, .reports] (withdraw (involves p) s) w ∧
      w.probe.opt = (removeProbes p (withdraw (involves p) s)).probe.opt ∧
      w.reports = (removeProbes p (withdraw (involves p) s)).reports ∧
      roleStep2 old new p s = w.modPort p (PortRec.reseated s.control.policy old new) := by
  let v := removeProbes p (withdraw (involves p) s)
  let w := if new = .uplink ∨ new = .unused then dropProbe p v else v
  have probes : OnlyChanges [.probe, .trap, .reports] (withdraw (involves p) s) v := frame_removeProbes p _
  have drop : OnlyChanges [.probe] v w := by
    by_cases h : new = .uplink ∨ new = .unused
    · rw [show w = dropProbe p v from if_pos h]; exact frame_dropProbe p v
    · rw [show w = v from if_neg h]; exact OnlyChanges.refl _ v
  have frame : OnlyChanges [.probe, .trap, .reports] (withdraw (involves p) s) w := probes.comp drop (by decide)
  have policy : w.control.policy = s.control.policy :=
    congrArg ModeUnit.policy
      ((frame .control (by decide)).trans (frame_withdraw _ s .control (by decide)))
  refine ⟨w, frame, ?_, drop .reports (by decide), ?_⟩
  · by_cases h : new = .uplink ∨ new = .unused
    · rw [show w = dropProbe p v from if_pos h]; rfl
    · rw [show w = v from if_neg h]
  · rw [← policy]
    show ((w.modPort p _).modPort p _) = _
    rw [State.modPort, port_modPort_self, State.modPort, setPort_setPort]
    rfl

theorem roleStep2_port (old new : Role) (p q : Port) (s : State) :
    (roleStep2 old new p s).port q =
      if q = p then ((withdraw (involves p) s).port p).reseated s.control.policy old new
      else (withdraw (involves p) s).port q := by
  obtain ⟨w, frame, -, -, h⟩ := roleStep2_eq old new p s
  rw [h, port_modPort, port_congr (frame .ports (by decide)), port_congr (frame .ports (by decide))]

/-- Step 2 leaves the OPT entries that pass their parity check and are not the port's. -/
theorem roleStep2_opt (old new : Role) (p : Port) (s : State) (i : Fin 32) (e : OptEntry) :
    (roleStep2 old new p s).probe.opt.get i = some e ↔
      s.probe.opt.get i = some e ∧ e.parityOk = true ∧ e.egress ≠ p := by
  obtain ⟨w, -, opt, -, h⟩ := roleStep2_eq old new p s
  rw [h, modPort_probe, opt, removeProbes_get,
    show (withdraw (involves p) s).probe = s.probe from frame_withdraw _ s .probe (by decide)]

theorem roleStep2_evidence (old new : Role) (p : Port) (s : State) :
    (roleStep2 old new p s).evidence = (withdraw (involves p) s).evidence := by
  obtain ⟨w, frame, -, -, h⟩ := roleStep2_eq old new p s
  rw [h, modPort_evidence, frame .evidence (by decide)]

/-- Step 2 leaves the LET entries that pass their parity check and do not involve the port. -/
theorem roleStep2_slots (old new : Role) (p : Port) (s : State) (i : Fin 16) (e : LetEntry) :
    (roleStep2 old new p s).evidence.slots.get i = some e ↔
      s.evidence.slots.get i = some e ∧ e.parityOk = true ∧ e.egress ≠ p ∧ e.ingress ≠ p := by
  rw [roleStep2_evidence, withdraw_get, involves_false]

/-! ### Step 2 for all changed ports -/

/-- Step 2 for the listed ports in turn. -/
def seatAll (old table : Port → Role) (l : List Port) (s : State) : State :=
  l.foldl (fun t p => roleStep2 (old p) (table p) p t) s

/-- What step 2 for the listed ports makes of the record of the port `q`. -/
structure Seated (policy : Policy) (old table : Port → Role) (l : List Port) (q : Port) (r u : PortRec) : Prop where
  kept : r.RoleKept u
  role : u.role = r.role
  guard : ¬ r.Freed → r.GuardSame u
  other : q ∉ l → r.RoleSame u
  override : q ∈ l → u.override = .noOverride
  credit : q ∈ l → u.creditB = roleCredit policy (old q) (table q) r.creditB

theorem roleStep2_seated {old table : Port → Role} {p : Port} (changed : table p ≠ old p) (s : State) (q : Port) :
    Seated s.control.policy old table [p] q (s.port q) ((roleStep2 (old p) (table p) p s).port q) := by
  have most := goneAtMost_withdraw (involves p) s
  obtain ⟨kept, same⟩ := most.role q
  rw [roleStep2_port]
  by_cases hq : q = p
  · subst hq
    obtain ⟨kept', guard, role, override, credit⟩ :=
      reseated_fields s.control.policy ((withdraw (involves q) s).port q) changed
    rw [if_pos rfl]
    exact
      { kept := kept.trans kept'
        role := role.trans same.role
        guard := fun h => by rw [most.stays h] at guard ⊢; exact guard
        other := fun h => absurd (List.mem_singleton_self q) h
        override := fun _ => override
        credit := fun _ => by rw [credit, same.meter.1] }
  · rw [if_neg hq]
    exact
      { kept := kept
        role := same.role
        guard := fun h => by rw [most.stays h]; exact PortRec.GuardSame.refl _
        other := fun _ => same
        override := fun h => absurd (List.mem_singleton.mp h) hq
        credit := fun h => absurd (List.mem_singleton.mp h) hq }

theorem seatAll_port {old table : Port → Role} {l : List Port} (once : l.Nodup)
    (changed : ∀ p ∈ l, table p ≠ old p) (s : State) (q : Port) :
    Seated s.control.policy old table l q (s.port q) ((seatAll old table l s).port q) := by
  induction l generalizing s with
  | nil =>
    exact ⟨PortRec.RoleKept.refl _, rfl, fun _ => PortRec.GuardSame.refl _, fun _ => PortRec.RoleSame.refl _,
      nofun, nofun⟩
  | cons p l ih =>
    obtain ⟨fresh, rest⟩ := List.nodup_cons.mp once
    have first := roleStep2_seated (changed p (by simp)) s q
    have then' := ih rest (fun c hc => changed c (List.mem_cons_of_mem _ hc)) (roleStep2 (old p) (table p) p s)
    rw [show (roleStep2 (old p) (table p) p s).control = s.control from
      frame_roleStep2 _ _ _ s .control (by decide)] at then'
    refine
      { kept := first.kept.trans then'.kept
        role := then'.role.trans first.role
        guard := fun h => (first.guard h).trans (then'.guard fun h' => h ((first.guard h).freed.mp h'))
        other := fun h => ?_
        override := fun h => ?_
        credit := fun h => ?_ }
    · obtain ⟨ne, out⟩ := not_or.mp (mt List.mem_cons.mpr h)
      exact (first.other (by simpa using ne)).trans (then'.other out)
    · rcases List.mem_cons.mp h with rfl | h
      · exact (then'.other fresh).override.trans (first.override (by simp))
      · exact then'.override h
    · rcases List.mem_cons.mp h with rfl | h
      · exact (then'.other fresh).meter.1.trans (first.credit (by simp))
      · rw [show (s.port q).creditB = ((roleStep2 (old p) (table p) p s).port q).creditB from
          (first.other (by rintro m; exact fresh (List.mem_singleton.mp m ▸ h))).meter.1.symm]
        exact then'.credit h

/-- No entry of a listed port is left in the OPT. -/
theorem seatAll_opt {old table : Port → Role} {l : List Port} {s : State} {i : Fin 32} {e : OptEntry}
    (h : (seatAll old table l s).probe.opt.get i = some e) :
    s.probe.opt.get i = some e ∧ ∀ p ∈ l, e.egress ≠ p := by
  induction l generalizing s with
  | nil => exact ⟨h, nofun⟩
  | cons p l ih =>
    obtain ⟨entry, rest⟩ := ih (s := roleStep2 (old p) (table p) p s) h
    obtain ⟨entry, -, ne⟩ := (roleStep2_opt ..).mp entry
    exact ⟨entry, List.forall_mem_cons.mpr ⟨ne, rest⟩⟩

/-- No entry that involves a listed port is left in the LET. -/
theorem seatAll_slots {old table : Port → Role} {l : List Port} {s : State} {i : Fin 16} {e : LetEntry}
    (h : (seatAll old table l s).evidence.slots.get i = some e) :
    s.evidence.slots.get i = some e ∧ ∀ p ∈ l, e.egress ≠ p ∧ e.ingress ≠ p := by
  induction l generalizing s with
  | nil => exact ⟨h, nofun⟩
  | cons p l ih =>
    obtain ⟨entry, rest⟩ := ih (s := roleStep2 (old p) (table p) p s) h
    obtain ⟨entry, -, ne⟩ := (roleStep2_slots ..).mp entry
    exact ⟨entry, List.forall_mem_cons.mpr ⟨ne, rest⟩⟩

/-! ### Step 2 where no entry fails its parity check -/

/-- Where no entry fails, step 2 of one port gives evidence-gone to the victims of the removed entries that no remaining
entry names. -/
theorem roleStep2_sound {old table : Port → Role} {c : Port} {s : State} (opt : OptSound s) (sound : LetSound s)
    (changed : table c ≠ old c) {gone : List Port} (ascending : gone.Pairwise (· < ·))
    (mem : ∀ v, v ∈ gone ↔
      (∃ i e, s.evidence.slots.get i = some e ∧ involves c e = true ∧ e.victim = some v) ∧
        ¬ Named (eraseLet (involves c) s) v) :
    OptSound (roleStep2 (old c) (table c) c s) ∧ LetSound (roleStep2 (old c) (table c) c s) ∧
      (roleStep2 (old c) (table c) c s).reports =
        (goneReports (fun v => (s.port v).guard) (fun v => (s.port v).hold) gone s).reports ∧
      ∀ v, (if v ∈ gone then (s.port v).gone else s.port v).GuardSame
        ((roleStep2 (old c) (table c) c s).port v) := by
  have gives : withdraw (involves c) s = allGone gone (eraseLet (involves c) s) := withdraw_sound sound ascending mem
  have erased (v : Port) : (eraseLet (involves c) s).port v = s.port v := port_congr rfl v
  refine ⟨fun i e h => ((roleStep2_opt ..).mp h).2.1, ⟨?_, fun i e h => ((roleStep2_slots ..).mp h).2.1⟩, ?_, ?_⟩
  · rw [roleStep2_evidence, gives, allGone_evidence]
    exact sound.1
  · obtain ⟨w, -, -, reports, h⟩ := roleStep2_eq (old c) (table c) c s
    have probe : (withdraw (involves c) s).probe = s.probe := frame_withdraw _ s .probe (by decide)
    have read : (removeProbes c (withdraw (involves c) s)).reports = (withdraw (involves c) s).reports := by
      rw [removeProbes_sound (opt.congr probe)]
      exact frame_eraseOpt _ _ .reports (by decide)
    rw [h, modPort_reports, reports, read, gives, allGone_reports (ascending_nodup ascending)]
    simp only [erased]
    exact goneReports_congr _ _ _ rfl rfl
  · intro v
    have after : (withdraw (involves c) s).port v = if v ∈ gone then (s.port v).gone else s.port v := by
      rw [gives, allGone_port, erased]
    rw [roleStep2_port, ← after]
    split
    · next e => rw [e]; exact (reseated_fields _ _ changed).2.1
    · exact PortRec.GuardSame.refl _

/-- The ports that step 2 gives evidence-gone for the changed port `c`: the victims of the entries it removes that no
remaining entry of `t` names. -/
def GoneOf (changed : Port → Prop) (t : State) (gone : Port → List Port) : Prop :=
  ∀ c v, v ∈ gone c ↔
    changed c ∧
    (∃ j l, t.evidence.slots.get j = some l ∧ (l.egress = c ∨ l.ingress = c) ∧ l.victim = some v ∧
      ∀ d, d < c → changed d → l.egress ≠ d ∧ l.ingress ≠ d) ∧
    ∀ j l, t.evidence.slots.get j = some l → l.victim = some v →
      ∃ d, d ≤ c ∧ changed d ∧ (l.egress = d ∨ l.ingress = d)

/-- A victim is freed at one changed port only. -/
theorem GoneOf.once {changed : Port → Prop} {t : State} {gone : Port → List Port} (h : GoneOf changed t gone)
    {c d v : Port} (hc : v ∈ gone c) (hd : v ∈ gone d) : ¬ c < d := by
  intro lt
  obtain ⟨-, -, all⟩ := (h c v).mp hc
  obtain ⟨-, ⟨j, l, entry, -, victim, clear⟩, -⟩ := (h d v).mp hd
  obtain ⟨x, le, changedX, inv⟩ := all j l entry victim
  obtain ⟨egress, ingress⟩ := clear x (lt_of_le_of_lt le lt) changedX
  exact inv.elim egress ingress

/-- In `s` step 2 remains to be taken for the ports of the ascending list `l`: the LET holds the entries of `t` that
involve no other changed port, and no entry of either table fails its parity check. -/
structure Remaining (changed : Port → Prop) (t : State) (l : List Port) (s : State) : Prop where
  opt : OptSound s
  sound : LetSound s
  ascending : l.Pairwise (· < ·)
  listed : ∀ c ∈ l, changed c
  past : ∀ d, changed d → d ∈ l ∨ ∀ c ∈ l, d < c
  slots : ∀ i e, s.evidence.slots.get i = some e ↔
    t.evidence.slots.get i = some e ∧ ∀ d, changed d → d ∉ l → e.egress ≠ d ∧ e.ingress ≠ d

/-- The changed ports before the head of the list are those that are no longer in it. -/
theorem Remaining.before {changed : Port → Prop} {t s : State} {c : Port} {l : List Port}
    (h : Remaining changed t (c :: l) s) {d : Port} (hd : changed d) : d ∉ c :: l ↔ d < c := by
  constructor
  · intro out
    exact (h.past d hd).resolve_left out c (by simp)
  · intro lt mem
    rcases List.mem_cons.mp mem with rfl | mem
    · exact lt_irrefl _ lt
    · exact lt_asymm lt ((List.pairwise_cons.mp h.ascending).1 d mem)

/-- At the head of the list, the freed victims are those of the removed entries that no remaining entry names. -/
theorem Remaining.gone {changed : Port → Prop} {t s : State} {c : Port} {l : List Port} {gone : Port → List Port}
    (h : Remaining changed t (c :: l) s) (g : GoneOf changed t gone) (v : Port) :
    v ∈ gone c ↔
      (∃ i e, s.evidence.slots.get i = some e ∧ involves c e = true ∧ e.victim = some v) ∧
        ¬ Named (eraseLet (involves c) s) v := by
  have hc : changed c := h.listed c (by simp)
  have stands (i : Fin 16) (e : LetEntry) : s.evidence.slots.get i = some e ↔
      t.evidence.slots.get i = some e ∧ ∀ d, d < c → changed d → e.egress ≠ d ∧ e.ingress ≠ d := by
    rw [h.slots]
    exact and_congr_right fun _ =>
      ⟨fun k d lt hd => k d hd ((h.before hd).mpr lt), fun k d hd out => k d ((h.before hd).mp out) hd⟩
  rw [g c v, Named]
  simp only [eraseLet_get, involves_false, involves_true, stands, hc, true_and]
  refine and_congr ⟨?_, ?_⟩ ⟨?_, ?_⟩
  · rintro ⟨j, l, entry, inv, victim, clear⟩
    exact ⟨j, l, ⟨entry, clear⟩, inv, victim⟩
  · rintro ⟨j, l, ⟨entry, clear⟩, inv, victim⟩
    exact ⟨j, l, entry, inv, victim, clear⟩
  · rintro all ⟨j, l, ⟨⟨entry, clear⟩, not⟩, victim⟩
    obtain ⟨d, le, hd, inv⟩ := all j l entry victim
    obtain ⟨egress, ingress⟩ : l.egress ≠ d ∧ l.ingress ≠ d := by
      rcases lt_or_eq_of_le le with lt | rfl
      · exact clear d lt hd
      · exact not
    exact inv.elim egress ingress
  · intro none j l entry victim
    by_contra free
    simp only [not_exists, not_and, not_or] at free
    exact none ⟨j, l, ⟨⟨entry, fun d lt hd => free d (le_of_lt lt) hd⟩, free c le_rfl hc⟩, victim⟩

/-- Step 2 of the head leaves the rest of the list. -/
theorem Remaining.next {changed : Port → Prop} {t s s' : State} {c : Port} {l : List Port}
    (h : Remaining changed t (c :: l) s) (opt : OptSound s') (sound : LetSound s')
    (slots : ∀ i e, s'.evidence.slots.get i = some e ↔
      s.evidence.slots.get i = some e ∧ e.parityOk = true ∧ e.egress ≠ c ∧ e.ingress ≠ c) :
    Remaining changed t l s' where
  opt := opt
  sound := sound
  ascending := (List.pairwise_cons.mp h.ascending).2
  listed d hd := h.listed d (List.mem_cons_of_mem _ hd)
  past d hd := by
    rcases h.past d hd with mem | lt
    · rcases List.mem_cons.mp mem with rfl | mem
      · exact Or.inr (List.pairwise_cons.mp h.ascending).1
      · exact Or.inl mem
    · exact Or.inr fun x hx => lt x (List.mem_cons_of_mem _ hx)
  slots i e := by
    rw [slots]
    constructor
    · rintro ⟨entry, -, ne⟩
      obtain ⟨entry, clear⟩ := (h.slots i e).mp entry
      refine ⟨entry, fun d hd out => ?_⟩
      by_cases hdc : d = c
      · rw [hdc]; exact ne
      · exact clear d hd (mt List.mem_cons.mp (not_or.mpr ⟨hdc, out⟩))
    · rintro ⟨entry, clear⟩
      have old := (h.slots i e).mpr
        ⟨entry, fun d hd out => clear d hd fun mem => out (List.mem_cons_of_mem _ mem)⟩
      have head : c ∉ l := fun mem => lt_irrefl c ((List.pairwise_cons.mp h.ascending).1 c mem)
      exact ⟨old, h.sound.2 i e old, clear c (h.listed c (by simp)) head⟩

/-- Where no entry fails, step 2 for the remaining ports gives evidence-gone port by port, each victim once. -/
theorem seatAll_sound {old table : Port → Role} {changed : Port → Prop} {t : State} {gone : Port → List Port}
    (g : GoneOf changed t gone) (ascending : ∀ c, (gone c).Pairwise (· < ·)) {l : List Port} {s w : State}
    (remaining : Remaining changed t l s) (differ : ∀ c ∈ l, table c ≠ old c)
    (reports : w.reports = s.reports) (stamp : w.clock.stamp = s.clock.stamp) :
    (seatAll old table l s).reports =
        (l.foldl (fun u c => goneReports (fun v => (s.port v).guard) (fun v => (s.port v).hold) (gone c) u) w).reports ∧
      ∀ v, ((∃ c ∈ l, v ∈ gone c) → (s.port v).gone.GuardSame ((seatAll old table l s).port v)) ∧
        ((∀ c ∈ l, v ∉ gone c) → (s.port v).GuardSame ((seatAll old table l s).port v)) := by
  induction l generalizing s w with
  | nil => exact ⟨reports.symm, fun v => ⟨nofun, fun _ => PortRec.GuardSame.refl _⟩⟩
  | cons c l ih =>
    obtain ⟨opt, sound, said, guards⟩ := roleStep2_sound (old := old) (table := table) remaining.opt
      remaining.sound (differ c (by simp)) (ascending c) (remaining.gone g)
    let s' := roleStep2 (old c) (table c) c s
    let guard : Port → GuardState := fun v => (s.port v).guard
    let hold : Port → Nat := fun v => (s.port v).hold
    have next : Remaining changed t l s' := remaining.next opt sound fun i e => roleStep2_slots ..
    have later {v d : Port} (hd : d ∈ l) (hv : v ∈ gone d) : (s.port v).GuardSame (s'.port v) := by
      have notNow : v ∉ gone c := fun now => g.once now hv ((List.pairwise_cons.mp remaining.ascending).1 d hd)
      have same := guards v
      rwa [if_neg notNow] at same
    have first : (goneReports guard hold (gone c) w).reports = s'.reports :=
      (goneReports_congr _ _ _ reports stamp).trans said.symm
    have clock : (goneReports guard hold (gone c) w).clock.stamp = s'.clock.stamp := by
      rw [goneReports_clock, stamp]
      exact (congrArg IntervalClock.stamp (frame_roleStep2 _ _ _ s .clock (by decide))).symm
    obtain ⟨rest, ports⟩ := ih next (fun d hd => differ d (List.mem_cons_of_mem _ hd)) first clock
    refine ⟨rest.trans (congrArg State.reports (List.foldl_ext _ _ _ fun u d hd => ?_)), fun v => ⟨?_, ?_⟩⟩
    · exact goneReports_ext (fun v hv => ⟨(later hd hv).guard, fun _ => (later hd hv).hold⟩) u
    · rintro ⟨d, mem, hv⟩
      have same := guards v
      rcases List.mem_cons.mp mem with rfl | hd
      · rw [if_pos hv] at same
        refine same.trans ((ports v).2 fun x hx hxv => ?_)
        exact g.once hv hxv ((List.pairwise_cons.mp remaining.ascending).1 x hx)
      · exact (later hd hv).gone.trans ((ports v).1 ⟨d, hd, hv⟩)
    · intro none
      have same := guards v
      rw [if_neg (none c (by simp))] at same
      exact same.trans ((ports v).2 fun d hd => none d (List.mem_cons_of_mem _ hd))

end Sys2Proof.Machine
end

section
/-! SUPPORT. A role change as a whole, and the ROLES request that asks for one (R10 to R13, R162, R178). -/

namespace Sys2Proof.Machine

/-- A port whose role a table changes. -/
def Changed (table : Port → Role) (s : State) (p : Port) : Prop := table p ≠ (s.port p).role

/-- The ports whose role a table changes, in ascending order. -/
def changedList (table : Port → Role) (s : State) : List Port :=
  allPorts.filter fun p => decide (table p ≠ (s.port p).role)

theorem mem_changedList {table : Port → Role} {s : State} {p : Port} :
    p ∈ changedList table s ↔ Changed table s p := by
  simp [changedList, mem_allPorts, Changed]

theorem changedList_ascending (table : Port → Role) (s : State) : (changedList table s).Pairwise (· < ·) :=
  allPorts_ascending.filter _

/-- The state after step 1 of a role change. -/
def afterRules (table : Port → Role) (s : State) : State := ruleAll table (changedList table s) s

/-- A role change is step 1 for every changed port, and then step 2 for every changed port. -/
theorem roleChange_eq (table : Port → Role) (s : State) :
    roleChange table s =
      seatAll (fun p => (s.port p).role) table (changedList table s) (afterRules table s) := by
  unfold roleChange changedPorts seatAll afterRules ruleAll
  simp only [List.foldl_map]
  rfl

theorem afterRules_changed {table : Port → Role} {s : State} {p : Port} (h : Changed table s p) :
    (afterRules table s).port p = (s.port p).ruled (table p) := by
  rw [afterRules, ruleAll_port _ (ascending_nodup (changedList_ascending table s)), if_pos (mem_changedList.mpr h)]

theorem afterRules_unchanged {table : Port → Role} {s : State} {p : Port} (h : ¬ Changed table s p) :
    (afterRules table s).port p = s.port p := by
  rw [afterRules, ruleAll_port _ (ascending_nodup (changedList_ascending table s)),
    if_neg fun m => h (mem_changedList.mp m)]

theorem frame_afterRules (table : Port → Role) (s : State) : OnlyChanges [.ports, .reports] s (afterRules table s) :=
  frame_ruleAll _ _ s

/-- After step 1 a port stands in the guard state that the role rule gives it. -/
theorem afterRules_guard (table : Port → Role) (s : State) (p : Port) :
    ((afterRules table s).port p).guard = ruledGuard (table p) (s.port p) := by
  by_cases h : Changed table s p
  · rw [afterRules_changed h, ruled_guard h]
  · rw [afterRules_unchanged h, ruledGuard, if_pos (Or.inl (not_not.mp h))]

/-- After step 1 a port in BLOCKED has the hold it had. -/
theorem afterRules_hold {table : Port → Role} {s : State} {p : Port}
    (blocked : ruledGuard (table p) (s.port p) = .blocked) : ((afterRules table s).port p).hold = (s.port p).hold := by
  by_cases h : Changed table s p
  · rw [afterRules_changed h, ruled_hold h blocked]
  · rw [afterRules_unchanged h]

theorem afterRules_role (table : Port → Role) (s : State) (p : Port) :
    ((afterRules table s).port p).role = table p := by
  by_cases h : Changed table s p
  · rw [afterRules_changed h]; exact (ruled_fields _ _).2.role
  · rw [afterRules_unchanged h]; exact (not_not.mp h).symm

theorem afterRules_kept (table : Port → Role) (s : State) (p : Port) :
    (s.port p).RoleKept ((afterRules table s).port p) := by
  by_cases h : Changed table s p
  · rw [afterRules_changed h]; exact (ruled_fields _ _).1
  · rw [afterRules_unchanged h]; exact PortRec.RoleKept.refl _

/-! ### What a role change makes of the ports and the tables -/

/-- Step 2 acts on the records that step 1 leaves. -/
theorem roleChange_seated (table : Port → Role) (s : State) (p : Port) :
    Seated s.control.policy (fun p => (s.port p).role) table (changedList table s) p
      ((afterRules table s).port p) ((roleChange table s).port p) := by
  have h := seatAll_port (old := fun p => (s.port p).role) (table := table)
    (ascending_nodup (changedList_ascending table s)) (fun p hp => mem_changedList.mp hp) (afterRules table s) p
  rw [show (afterRules table s).control = s.control from frame_afterRules table s .control (by decide)] at h
  rw [roleChange_eq]
  exact h

/-- Every port has the role of the table, its strike and its last count. -/
theorem roleChange_all (table : Port → Role) (s : State) (p : Port) :
    ((roleChange table s).port p).role = table p ∧ (s.port p).RoleKept ((roleChange table s).port p) :=
  ⟨(roleChange_seated table s p).role.trans (afterRules_role table s p),
    (afterRules_kept table s p).trans (roleChange_seated table s p).kept⟩

/-- A changed port loses its override, and its credit is adjusted. -/
theorem roleChange_changed {table : Port → Role} {s : State} {p : Port} (h : Changed table s p) :
    ((roleChange table s).port p).override = .noOverride ∧
      ((roleChange table s).port p).creditB =
        roleCredit s.control.policy (s.port p).role (table p) (s.port p).creditB := by
  have seated := roleChange_seated table s p
  have mem : p ∈ changedList table s := mem_changedList.mpr h
  refine ⟨seated.override mem, (seated.credit mem).trans ?_⟩
  rw [afterRules_changed h, (ruled_fields _ _).2.meter.1]

/-- Any other port keeps override, credit, average and trip flag. -/
theorem roleChange_unchanged {table : Port → Role} {s : State} {p : Port} (h : ¬ Changed table s p) :
    (s.port p).RoleSame ((roleChange table s).port p) := by
  have seated := roleChange_seated table s p
  rw [afterRules_unchanged h] at seated
  exact seated.other fun m => h (mem_changedList.mp m)

theorem roleChange_opt {table : Port → Role} {s : State} {p : Port} (h : Changed table s p) {i : Fin 32} {e : OptEntry}
    (entry : (roleChange table s).probe.opt.get i = some e) : e.egress ≠ p := by
  rw [roleChange_eq] at entry
  exact (seatAll_opt entry).2 p (mem_changedList.mpr h)

theorem roleChange_slots {table : Port → Role} {s : State} {p : Port} (h : Changed table s p) {i : Fin 16}
    {e : LetEntry} (entry : (roleChange table s).evidence.slots.get i = some e) : e.egress ≠ p ∧ e.ingress ≠ p := by
  rw [roleChange_eq] at entry
  exact (seatAll_slots entry).2 p (mem_changedList.mpr h)

/-- A port that the role rule leaves where evidence-gone does not act stands in the state of the rule. -/
theorem roleChange_guard {table : Port → Role} {s : State} {p : Port}
    (h : ¬ (ruledGuard (table p) (s.port p) = .suspect ∨
      ruledGuard (table p) (s.port p) = .blocked ∧ (s.port p).hold = 0)) :
    ((afterRules table s).port p).GuardSame ((roleChange table s).port p) := by
  refine (roleChange_seated table s p).guard ?_
  rw [PortRec.Freed, afterRules_guard]
  rintro (suspect | ⟨blocked, hold⟩)
  · exact h (Or.inl suspect)
  · exact h (Or.inr ⟨blocked, (afterRules_hold blocked).symm.trans hold⟩)

/-- The three moves of the role rule for a changed port that is present (R11). -/
theorem ruledGuard_moves {new : Role} {r : PortRec} (changed : new ≠ r.role) (present : r.present = true) :
    (new = .unused → ruledGuard new r = .disabled) ∧
      (new ≠ .unused → r.role = .unused → ruledGuard new r = if r.linkUp then .listen else .down) ∧
      (r.role = .access → r.guard = .blocked → new ≠ .unused → ruledGuard new r = .listen) := by
  have moves : ¬ (new = r.role ∨ r.present = false) := by simp [changed, present]
  unfold ruledGuard
  rw [if_neg moves]
  refine ⟨fun unused => if_pos unused, fun guarded old => ?_, fun access blocked guarded => ?_⟩
  · rw [if_neg guarded, if_pos old]
  · rw [if_neg guarded, if_neg (by rw [access]; decide), if_pos ⟨access, blocked⟩]

/-- The record of a blocked ACCESS port after step 1 has no hold left (R11). -/
theorem ruled_blocked_hold {new : Role} {r : PortRec} (present : r.present = true) (guarded : new ≠ .unused)
    (access : r.role = .access) (blocked : r.guard = .blocked) : (r.ruled new).hold = 0 := by
  have move : ruleMove new r = some .listen := by
    unfold ruleMove
    rw [if_neg (by simp [present]), if_neg guarded, if_neg (by rw [access]; decide), if_pos ⟨access, blocked⟩]
  obtain ⟨-, -, hold, -⟩ := (enter_entered ({ r with role := new } : PortRec) .listen).counts
  rw [ruled_some move]
  exact hold

theorem roleChange_moves {table : Port → Role} {s : State} {p : Port} (h : Changed table s p)
    (present : (s.port p).present = true) :
    (table p = .unused → ((roleChange table s).port p).guard = .disabled) ∧
      (table p ≠ .unused → (s.port p).role = .unused →
        ((roleChange table s).port p).guard = if (s.port p).linkUp then .listen else .down) ∧
      ((s.port p).role = .access → (s.port p).guard = .blocked → table p ≠ .unused →
        ((roleChange table s).port p).guard = .listen ∧ ((roleChange table s).port p).hold = 0) := by
  have stands {g : GuardState} (rule : ruledGuard (table p) (s.port p) = g) (hs : g ≠ .suspect) (hb : g ≠ .blocked) :
      ((roleChange table s).port p).guard = g ∧
        ((roleChange table s).port p).hold = ((s.port p).ruled (table p)).hold := by
    have same := roleChange_guard (table := table) (s := s) (p := p) (by simp [rule, hs, hb])
    rw [← afterRules_changed h]
    exact ⟨same.guard.trans ((afterRules_guard table s p).trans rule), same.hold⟩
  obtain ⟨unused, old, blocked⟩ := ruledGuard_moves h present
  refine ⟨fun new => (stands (unused new) (by decide) (by decide)).1, fun guarded was => ?_,
    fun access was guarded => ?_⟩
  · exact (stands (old guarded was) (by split <;> decide) (by split <;> decide)).1
  · obtain ⟨guard, hold⟩ := stands (blocked access was guarded) (by decide) (by decide)
    exact ⟨guard, hold.trans (ruled_blocked_hold present guarded access was)⟩

/-! ### A role change where no entry fails its parity check -/

/-- A fold over the listed elements that pass a test is a fold over all, where an element that fails changes nothing. -/
theorem foldl_filter_skip {α β : Type} (p : α → Bool) (f : β → α → β) (l : List α) (b : β)
    (skip : ∀ b a, p a = false → f b a = b) : (l.filter p).foldl f b = l.foldl f b := by
  rw [List.foldl_filter]
  refine List.foldl_ext _ _ _ fun b a _ => ?_
  split
  · rfl
  · next h => exact (skip b a (by simpa using h)).symm

/-- The STATE records of the role rule, port by port. -/
def ruleReports (table : Port → Role) (s : State) : State :=
  allPorts.foldl (fun u p => ruleReport (ruledGuard (table p) (s.port p)) p (s.port p) u) s

theorem ruleReports_eq {table : Port → Role} {s : State} (fits : ∀ p, (s.port p).Fits) :
    (ruleReports table s).reports = (afterRules table s).reports := by
  have all : ruleReports table s = (changedList table s).foldl
      (fun u p => ruleReport (ruledGuard (table p) (s.port p)) p (s.port p) u) s := by
    refine (foldl_filter_skip _ _ _ _ fun u p h => ?_).symm
    have same : table p = (s.port p).role := by simpa using h
    rw [ruleReport, ruledGuard, if_pos (Or.inl same), if_pos rfl]
  rw [all]
  exact (ruleAll_reports (ascending_nodup (changedList_ascending table s)) (fun p hp => mem_changedList.mp hp)
    (fun p _ => fits p) rfl rfl).symm

theorem ruleReports_clock (table : Port → Role) (s : State) : (ruleReports table s).clock = s.clock := by
  have fold (l : List Port) : ∀ u : State,
      (l.foldl (fun u p => ruleReport (ruledGuard (table p) (s.port p)) p (s.port p) u) u).clock = u.clock := by
    induction l with
    | nil => exact fun _ => rfl
    | cons p l ih => exact fun u => (ih _).trans (ruleReport_clock ..)
  exact fold allPorts s

/-- Before step 2, every changed port remains. -/
theorem remaining_all {table : Port → Role} {s : State} (opt : OptSound s) (sound : LetSound s) :
    Remaining (Changed table s) s (changedList table s) (afterRules table s) where
  opt := opt.congr (frame_afterRules table s .probe (by decide))
  sound := sound.congr (frame_afterRules table s .evidence (by decide))
  ascending := changedList_ascending table s
  listed _ hc := mem_changedList.mp hc
  past _ hd := Or.inl (mem_changedList.mpr hd)
  slots i e := by
    rw [show (afterRules table s).evidence = s.evidence from frame_afterRules table s .evidence (by decide)]
    exact ⟨fun h => ⟨h, fun d hd out => absurd (mem_changedList.mpr hd) out⟩, fun h => h.1⟩

/-- Where no entry fails, the records of the role rule come first, then evidence-gone port by port; a victim is freed
from the state in which the role rule leaves it. -/
theorem roleChange_sound {table : Port → Role} {s : State} (opt : OptSound s) (sound : LetSound s)
    (fits : ∀ p, (s.port p).Fits) {gone : Port → List Port} (ascending : ∀ c, (gone c).Pairwise (· < ·))
    (g : GoneOf (Changed table s) s gone) :
    (roleChange table s).reports =
        (allPorts.foldl
          (fun u c => goneReports (fun v => ruledGuard (table v) (s.port v)) (fun v => (s.port v).hold) (gone c) u)
          (ruleReports table s)).reports ∧
      ∀ v, ((∃ c, v ∈ gone c) →
          ((afterRules table s).port v).gone.GuardSame ((roleChange table s).port v)) ∧
        ((∀ c, v ∉ gone c) → ((afterRules table s).port v).GuardSame ((roleChange table s).port v)) := by
  obtain ⟨reports, ports⟩ := seatAll_sound (old := fun p => (s.port p).role) (table := table) g ascending
    (remaining_all opt sound) (fun c hc => mem_changedList.mp hc) (ruleReports_eq fits)
    (congrArg IntervalClock.stamp
      ((ruleReports_clock table s).trans (frame_afterRules table s .clock (by decide)).symm))
  rw [← roleChange_eq] at reports
  constructor
  · rw [reports, List.foldl_ext _ _ _ fun u c _ => goneReports_ext (guard' := fun v => ruledGuard (table v) (s.port v))
      (hold' := fun v => (s.port v).hold)
      (fun v _ => ⟨afterRules_guard table s v, fun blocked => afterRules_hold blocked⟩) u]
    refine congrArg State.reports (foldl_filter_skip _ _ _ _ fun u c h => ?_)
    have none : gone c = [] := List.eq_nil_iff_forall_not_mem.mpr fun v hv =>
      ((g c v).mp hv).1 (by simpa using h)
    rw [none]; rfl
  · intro v
    rw [roleChange_eq]
    obtain ⟨freed, left⟩ := ports v
    exact ⟨fun ⟨c, hv⟩ => freed ⟨c, mem_changedList.mpr ((g c v).mp hv).1, hv⟩, fun h => left fun c _ => h c⟩

/-! ### The ROLES request -/

/-- KEY stands at the level sampled last. -/
theorem sampleKey_key (level : Bool) (s : State) : (sampleKey level s).key = level := by
  have falls : (keyFalls s).key = false := by
    unfold keyFalls
    split
    · rw [report_key]
    · rfl
  unfold sampleKey
  split
  · next h => rw [falls, h.2]
  · rfl

theorem carried_key {body : List Byte} {s t : State} (h : Carried body s t) : t.key = s.key := by
  obtain ⟨-, -, -, -, -, -, rfl⟩ := h
  rfl

/-- A ROLES request that is carried out in MANAGED answers with what its action makes of the state. -/
theorem exec_roles {key : Bool} {fields : List Byte} {s t : State} (h : Carried (0x08 :: fields) (sampleKey key s) t)
    (managed : t.control.mode = .managed) :
    exec (.roles key fields) s = .next (sendReply 0x08 (doRoles fields t)) :=
  congrArg Host.Outcome.next
    (request_served (k := .roles) h (by rw [managed]; exact trivial))

/-- ROLES with codes that all name roles: the list must lie within the ports (R162). -/
theorem doRoles_parsed (start : Byte) {codes : List Byte} {roles : List Role} (parsed : parseRoles codes = some roles)
    (t : State) :
    doRoles (start :: codes) t =
      if 1 ≤ roles.length ∧ start.toNat ≤ 27 ∧ start.toNat + roles.length ≤ 28 then rolesCodes start.toNat roles t
      else refuse .range t := by
  simp only [doRoles, parsed]

/-- The reply counts the changed ports. -/
theorem changedPorts_length (table : Port → Role) (s : State) :
    (changedPorts table s).length = (changedList table s).length := List.length_map _

/-- Settles O45: the refusals in their order, and the role change in its two steps. -/
theorem rolesChangesTheRoles : Obligations.RolesChangesTheRoles := by
  intro key start codes s t carried managed some1 few
  have run := exec_roles carried managed
  have level : t.key = key := (carried_key carried).trans (sampleKey_key key s)
  refine ⟨fun bad => ?_, fun roles parsed room => ?_⟩
  · have refused : doRoles (start :: codes) t = refuse .range t := by
      cases parsed : parseRoles codes with
      | none => simp only [doRoles, parsed]
      | some roles =>
        have length := parseRoles_length _ _ parsed
        have long := bad.resolve_left (by rw [parsed]; exact nofun)
        rw [doRoles_parsed start parsed t, if_neg (by omega)]
    rw [run, refused]
    rfl
  have length := parseRoles_length _ _ parsed
  have taken : doRoles (start :: codes) t = rolesCodes start.toNat roles t := by
    rw [doRoles_parsed start parsed t, if_pos ⟨by omega, by omega, by omega⟩]
  rw [taken] at run
  refine ⟨fun low => ?_, fun high => ?_⟩
  · have refused : rolesCodes start.toNat roles t = refuse .locked t := if_pos (level.trans low)
    rw [run, refused]
    rfl
  intro new changed
  have served : rolesCodes start.toNat roles t =
      ⟨roleChange new t, .ok, [BitVec.ofNat 8 (changedPorts new t).length]⟩ :=
    if_neg (by rw [level, high]; decide)
  rw [changedPorts_length] at served
  rw [served] at run
  refine ⟨roleChange new t, run, frame_roleChange new t, fun p => ?_, fun p h => ?_, fun p h => ?_, fun p h => ?_, ?_⟩
  · obtain ⟨role, kept⟩ := roleChange_all new t p
    exact ⟨role, kept.strike, kept.lastF⟩
  · obtain ⟨override, credit⟩ := roleChange_changed h
    exact ⟨override, credit, fun i e => roleChange_opt h, fun i e => roleChange_slots h⟩
  · obtain ⟨-, override, credit, average, trip⟩ := roleChange_unchanged h
    exact ⟨override, credit, average, trip⟩
  · exact roleChange_moves h
  · intro opt sound fits ruled stepOne gone ascending mem
    obtain ⟨reports, ports⟩ := roleChange_sound opt sound fits ascending mem
    refine ⟨fun v => ⟨fun named suspect => ?_, fun named blocked hold => ?_, fun stays => ?_⟩, reports⟩
    · have same := (ports v).1 named
      rw [gone_suspect ((afterRules_guard new t v).trans suspect)] at same
      obtain ⟨guard, -, -, -, decay, -⟩ := enter_spec ((afterRules new t).port v) .forward 0 0
      exact ⟨same.guard.trans guard, same.decay.trans decay⟩
    · have same := (ports v).1 named
      rw [gone_blocked ((afterRules_guard new t v).trans blocked) ((afterRules_hold blocked).trans hold)] at same
      obtain ⟨guard, listen, -, held, -⟩ := enter_spec ((afterRules new t).port v) .listen 0 0
      exact ⟨same.guard.trans guard, same.listen.trans listen, same.hold.trans held⟩
    · rcases stays with none | kept
      · exact ((ports v).2 none).guard.trans (afterRules_guard new t v)
      · exact (roleChange_guard kept).guard.trans (afterRules_guard new t v)

end Sys2Proof.Machine
end

section
/-! SUPPORT. What every command leaves of the Port Table: role, presence, link flag and override of each port, the
order list, and the mode.  The few events that change them are named once, in `TableInvariant`; a property that they
keep is kept by every step (R2, R8, R103). -/

namespace Sys2Proof.Machine

/-! ### Operations that leave the Port Table alone -/

/-- Role, presence, link flag and override of every port are kept, and so is the order list; the mode is kept, or is
MANAGED, as a wake event makes it. -/
structure TableKept (s t : State) : Prop where
  role : ∀ p, (t.port p).role = (s.port p).role
  present : ∀ p, (t.port p).present = (s.port p).present
  linkUp : ∀ p, (t.port p).linkUp = (s.port p).linkUp
  override : ∀ p, (t.port p).override = (s.port p).override
  order : t.order = s.order
  mode : t.control.mode = s.control.mode ∨ t.control.mode = .managed
  loading : t.control.loading = s.control.loading

theorem TableKept.refl (s : State) : TableKept s s :=
  ⟨fun _ => rfl, fun _ => rfl, fun _ => rfl, fun _ => rfl, rfl, Or.inl rfl, rfl⟩

theorem TableKept.trans {s t u : State} (h : TableKept s t) (k : TableKept t u) : TableKept s u where
  role p := (k.role p).trans (h.role p)
  present p := (k.present p).trans (h.present p)
  linkUp p := (k.linkUp p).trans (h.linkUp p)
  override p := (k.override p).trans (h.override p)
  order := k.order.trans h.order
  mode := k.mode.elim (fun e => h.mode.imp e.trans e.trans) Or.inr
  loading := k.loading.trans h.loading

theorem TableKept.foldl {α : Type} {f : State → α → State} (h : ∀ s a, TableKept s (f s a)) :
    ∀ (l : List α) (s : State), TableKept s (l.foldl f s)
  | [], s => TableKept.refl s
  | a :: l, s => (h s a).trans (TableKept.foldl h l (f s a))

/-- A guard or evidence event that touches neither the order list nor the Mode Unit. -/
theorem TableKept.of_kept {l : List Part} {s t : State} (k : Kept s t) (h : OnlyChanges l s t)
    (order : Part.order ∉ l) (control : Part.control ∉ l) : TableKept s t where
  role p := (k p).role
  present p := (k p).present
  linkUp p := (k p).linkUp
  override p := (k p).override
  order := h .order order
  mode := Or.inl (congrArg ModeUnit.mode (h .control control))
  loading := congrArg ModeUnit.loading (h .control control)

/-- An operation that touches neither the records, nor the order list, nor the Mode Unit. -/
theorem TableKept.of_frame {l : List Part} {s t : State} (h : OnlyChanges l s t) (ports : Part.ports ∉ l)
    (order : Part.order ∉ l) (control : Part.control ∉ l) : TableKept s t :=
  TableKept.of_kept (Kept.of_part h ports) h order control

/-- A change of the Mode Unit that leaves the mode, or sets it to MANAGED. -/
theorem tableKept_set_control (s : State) (x : ModeUnit) (mode : x.mode = s.control.mode ∨ x.mode = .managed)
    (loading : x.loading = s.control.loading) : TableKept s { s with control := x } :=
  ⟨fun _ => rfl, fun _ => rfl, fun _ => rfl, fun _ => rfl, rfl, mode, loading⟩

theorem tableKept_set_mgmt (s : State) (m : ManagementLine) : TableKept s { s with mgmt := m } :=
  .of_frame (frame_set_mgmt s m) (by decide) (by decide) (by decide)

theorem tableKept_set_glink (s : State) (g : GuardLink) : TableKept s { s with glink := g } :=
  .of_frame (frame_set_glink s g) (by decide) (by decide) (by decide)

theorem tableKept_set_probe (s : State) (u : ProbeUnit) : TableKept s { s with probe := u } :=
  .of_frame (frame_set_probe s u) (by decide) (by decide) (by decide)

theorem tableKept_set_meter (s : State) (m : FloodMeter) : TableKept s { s with meter := m } :=
  .of_frame (frame_set_meter s m) (by decide) (by decide) (by decide)

theorem tableKept_set_arbiter (s : State) (a : Arbiter) : TableKept s { s with arbiter := a } :=
  .of_frame (frame_set_arbiter s a) (by decide) (by decide) (by decide)

theorem tableKept_set_channel (s : State) (a : Arbiter) (g : GuardLink) :
    TableKept s { s with arbiter := a, glink := g } :=
  .of_frame (frame_set_channel s a g) (by decide) (by decide) (by decide)

theorem tableKept_set_fault (s : State) (g : GuardLink) (a : Arbiter) (x : ProbeUnit) :
    TableKept s { s with glink := g, arbiter := a, probe := x } :=
  .of_frame (frame_set_fault s g a x) (by decide) (by decide) (by decide)

theorem tableKept_set_round (s : State) (k : IntervalClock) (x : ProbeUnit) :
    TableKept s { s with clock := k, probe := x } :=
  .of_frame (frame_set_round s k x) (by decide) (by decide) (by decide)

theorem tableKept_set_reports (s : State) (u : ReportUnit) : TableKept s { s with reports := u } :=
  .of_frame (frame_set_reports s u) (by decide) (by decide) (by decide)

theorem tableKept_report (b : ReportBody) (s : State) : TableKept s (report b s) :=
  .of_frame (frame_report b s) (by decide) (by decide) (by decide)

/-- A change of every record that keeps its Port Table fields. -/
theorem tableKept_mapPorts {f : Port → PortRec → PortRec} (s : State)
    (h : ∀ p r, (f p r).role = r.role ∧ (f p r).present = r.present ∧ (f p r).linkUp = r.linkUp ∧
      (f p r).override = r.override) : TableKept s (s.mapPorts f) where
  role p := by rw [port_mapPorts]; exact (h p _).1
  present p := by rw [port_mapPorts]; exact (h p _).2.1
  linkUp p := by
    obtain ⟨-, -, linkUp, -⟩ := h p (s.port p)
    rw [port_mapPorts]; exact linkUp
  override p := by
    obtain ⟨-, -, -, override⟩ := h p (s.port p)
    rw [port_mapPorts]; exact override
  order := mapPorts_order ..
  mode := Or.inl (by rw [mapPorts_control])
  loading := by rw [mapPorts_control]

theorem tableKept_setPort {s : State} {p : Port} {r : PortRec} (role : r.role = (s.port p).role)
    (present : r.present = (s.port p).present) (linkUp : r.linkUp = (s.port p).linkUp)
    (override : r.override = (s.port p).override) : TableKept s (s.setPort p r) := by
  have self (q : Port) : (s.setPort p r).port q = s.port q ∨ q = p ∧ (s.setPort p r).port q = r := by
    rw [port_setPort]
    split
    · next e => exact Or.inr ⟨e, rfl⟩
    · exact Or.inl rfl
  refine ⟨fun q => ?_, fun q => ?_, fun q => ?_, fun q => ?_, rfl, Or.inl rfl, rfl⟩ <;>
    rcases self q with h | ⟨rfl, h⟩ <;> rw [h] <;> assumption

theorem tableKept_setMode_managed (c : ModeCause) (s : State) : TableKept s (setMode .managed c s) := by
  unfold setMode
  refine TableKept.trans ?_ (tableKept_report _ _)
  exact tableKept_set_control s _ (Or.inr rfl) rfl

theorem tableKept_wake (k : WakeKind) (p : Port) (s : State) : TableKept s (wake k p s) := by
  unfold wake
  split
  · exact tableKept_setMode_managed _ s
  · exact TableKept.refl s

theorem tableKept_readOpt (s : State) : TableKept s (readOpt s) :=
  .of_frame (frame_readOpt s) (by decide) (by decide) (by decide)

theorem tableKept_handTx (r : OutRecord) (s : State) : TableKept s (handTx r s) :=
  .of_frame (frame_handTx r s) (by decide) (by decide) (by decide)

/-! ### The interval -/

theorem tableKept_roundSteps (s : State) : TableKept s (roundSteps s) := by
  have old (r : Round) (t : State) : TableKept t (dealOld r t) :=
    .of_kept (kept_dealOld r t) (frame_dealOld r t) (by decide) (by decide)
  unfold roundSteps
  dsimp only
  refine TableKept.trans ?_ (tableKept_set_probe _ _)
  refine TableKept.trans ?_ (old _ _)
  exact tableKept_set_round s _ _

theorem tableKept_takeRound (s : State) : TableKept s (takeRound s) := by
  unfold takeRound
  split
  · exact (tableKept_roundSteps s).trans
      (.of_kept (kept_uplinkBook _) (frame_uplinkBook _) (by decide) (by decide))
  · exact TableKept.refl s

theorem tableKept_expireDue (s : State) : TableKept s (expireDue s) :=
  .of_kept (kept_expireDue s) (frame_expireDue s) (by decide) (by decide)

theorem tableKept_portEnds (p : Port) (s : State) : TableKept s (portEnds p s) :=
  .of_kept (kept_portEnds p s) (frame_portEnds p s) (by decide) (by decide)

theorem tableKept_lowerPortsEnd (p : Port) (s : State) : TableKept s (lowerPortsEnd p s) :=
  TableKept.foldl (fun t q => tableKept_portEnds q t) _ s

/-- The Port Guard's count of an interval event leaves the Port Table's fields. -/
theorem tickRec_table (n : Nat) (r : PortRec) :
    (tickRec n r).role = r.role ∧ (tickRec n r).present = r.present ∧ (tickRec n r).linkUp = r.linkUp ∧
      (tickRec n r).override = r.override := by
  unfold tickRec
  split
  · split <;> exact ⟨rfl, rfl, rfl, rfl⟩
  · split <;> exact ⟨rfl, rfl, rfl, rfl⟩
  all_goals exact ⟨rfl, rfl, rfl, rfl⟩

theorem tableKept_hostTick (s : State) : TableKept s (hostTick s) := by
  unfold hostTick
  split
  · exact tableKept_set_control s _ (Or.inl rfl) rfl
  · exact TableKept.refl s

theorem tableKept_meterInterval (s : State) : TableKept s (meterInterval s) := by
  unfold meterInterval
  dsimp only
  refine TableKept.trans ?_ (tableKept_set_meter _ _)
  exact tableKept_mapPorts s fun _ _ => ⟨rfl, rfl, rfl, rfl⟩

theorem tableKept_paceTick (s : State) : TableKept s (paceTick s) :=
  .of_frame (frame_paceTick s) (by decide) (by decide) (by decide)

theorem tableKept_intervalTick (s : State) : TableKept s (intervalTick s) := by
  unfold intervalTick
  dsimp only
  refine TableKept.trans ?_ (tableKept_hostTick _)
  refine TableKept.trans ?_ (tableKept_mapPorts _ fun _ r => tickRec_table _ r)
  refine TableKept.trans ?_ (tableKept_readOpt _)
  refine TableKept.trans ?_ (tableKept_paceTick _)
  refine TableKept.trans ?_ (tableKept_handTx _ _)
  refine TableKept.trans ?_ (tableKept_meterInterval _)
  exact .of_frame (frame_clockTick s) (by decide) (by decide) (by decide)

/-! ### The Guard Link -/

theorem tableKept_linkReturns (f : PortField) (k : InboundKind) (s : State) : TableKept s (linkReturns f k s) :=
  .of_frame (frame_linkReturns f k s) (by decide) (by decide) (by decide)

theorem tableKept_tripEvent (p : Port) (s : State) : TableKept s (tripEvent p s) := by
  unfold tripEvent
  refine TableKept.trans (tableKept_wake .trip p s) ?_
  refine TableKept.trans (.of_kept (kept_readLet _) (frame_readLet _) (by decide) (by decide)) ?_
  refine TableKept.trans (.of_kept (kept_interlock p _) (frame_interlock p _) (by decide) (by decide)) ?_
  refine TableKept.trans ?_ (.of_kept (kept_settleSweep _) (frame_settleSweep _) (by decide) (by decide))
  split
  · exact TableKept.refl _
  · exact .of_kept (kept_tripPassed p _) (frame_tripPassed p _) (by decide) (by decide)

theorem tableKept_watchDigest (p : Port) (r : PortRec) (s : State) : TableKept s (watchDigest p r s) :=
  .of_frame (frame_watchDigest p r s) (by decide) (by decide) (by decide)

theorem tableKept_takeDigest (p : Port) (n : Nat) (s : State) : TableKept s (takeDigest p n s) := by
  unfold takeDigest
  refine TableKept.trans (t := s.setPort p (meterUpdate (s.rowAt p) n (s.port p)))
    (tableKept_setPort rfl rfl rfl rfl) ?_
  refine TableKept.trans ?_ (tableKept_watchDigest _ _ _)
  split
  · exact tableKept_tripEvent p _
  · split
    · exact .of_kept (kept_clearEvent p _) (frame_clearEvent p _) (by decide) (by decide)
    · exact TableKept.refl _

theorem tableKept_digestAtMeter (p : Port) (b : Byte) (n : Nat) (s : State) :
    TableKept s (digestAtMeter p b n s) := by
  have late : TableKept s (lateDigest s) :=
    .of_frame (frame_lateDigest s) (by decide) (by decide) (by decide)
  unfold digestAtMeter
  split
  · exact TableKept.refl s
  · split
    · exact late
    · split
      · exact late
      · split
        · exact late
        · exact tableKept_takeDigest p n s

theorem tableKept_catchFound (i : Fin 32) (y : Port) (s : State) : TableKept s (catchFound i y s) := by
  unfold catchFound
  split
  · exact TableKept.refl s
  · refine TableKept.trans (tableKept_wake .caught y s) ?_
    dsimp only
    split
    · exact TableKept.refl _
    · exact TableKept.trans (.of_frame (frame_writeOpt _ _ _) (by decide) (by decide) (by decide))
        (.of_kept (kept_sighting _ _ _) (frame_sighting _ _ _) (by decide) (by decide))

theorem tableKept_catchAtProbe (y x : PortField) (r : Round) (d : Identity) (s : State) :
    TableKept s (catchAtProbe y x r d s) := by
  have late (t : State) : TableKept t (lateCatch t) :=
    .of_frame (frame_lateCatch t) (by decide) (by decide) (by decide)
  have count (u : ProbeUnit) : TableKept s { s with probe := u } :=
    .of_frame (frame_set_probe s u) (by decide) (by decide) (by decide)
  unfold catchAtProbe
  split
  · exact count _
  · split
    · unfold catchOn
      split
      · refine TableKept.trans (tableKept_readOpt s) ?_
        dsimp only
        split
        · exact late _
        · exact tableKept_catchFound _ _ _
      · exact late s
    · exact count _

theorem tableKept_setportConfirmed (p : Port) (s : State) : TableKept s (setportConfirmed p s) :=
  tableKept_setPort rfl rfl rfl rfl

theorem tableKept_setportTimedOut (p q : Port) (s : State) : TableKept s (setportTimedOut p q s) := by
  unfold setportTimedOut
  dsimp only
  refine TableKept.trans ?_ (tableKept_set_arbiter _ _)
  exact tableKept_setPort rfl rfl rfl rfl

theorem tableKept_linkFails (p : Port) (k : CommandKind) (s : State) : TableKept s (linkFails p k s) := by
  unfold linkFails
  dsimp only
  refine TableKept.trans ?_ (tableKept_set_fault _ _ _ _)
  refine TableKept.trans ?_ (tableKept_mapPorts _ fun _ _ => ⟨rfl, rfl, rfl, rfl⟩)
  exact tableKept_report _ s

theorem tableKept_commandTimeout (o : Outstanding) (s : State) : TableKept s (commandTimeout o s) := by
  have judge (t : State) : TableKept t (judgeLink o.port o.kind.command t) := by
    unfold judgeLink
    split
    · exact tableKept_linkFails _ _ _
    · exact TableKept.refl _
  have ended : TableKept s (endCommand { s with glink := { s.glink with ackTimeouts := satInc s.glink.ackTimeouts } }) :=
    (tableKept_set_glink s _).trans (tableKept_set_glink _ _)
  unfold commandTimeout
  dsimp only
  refine TableKept.trans ?_ (judge _)
  refine TableKept.trans ?_ (tableKept_set_arbiter _ _)
  refine TableKept.trans ended ?_
  split
  · exact tableKept_setportTimedOut _ _ _
  · exact .of_frame (frame_probeEnded _ _ _) (by decide) (by decide) (by decide)

theorem tableKept_grantSetport (p : Port) (s : State) : TableKept s (grantSetport p s) := by
  unfold grantSetport
  dsimp only
  refine TableKept.trans ?_ (tableKept_handTx _ _)
  refine TableKept.trans ?_ (tableKept_set_channel _ _ _)
  exact tableKept_setPort rfl rfl rfl rfl

/-! ### Policy, mode and reports -/

theorem frame_clearCounts (s : State) :
    OnlyChanges [.meter, .probe, .evidence, .glink, .mgmt] s (clearCounts s) := by
  intro a ha
  cases a <;> first | rfl | (exfalso; revert ha; decide)

theorem frame_judgeResumption (s : State) : OnlyChanges [.reports] s (judgeResumption s) := by
  unfold judgeResumption
  split
  · refine OnlyChanges.comp ?_ (frame_set_reports _ _) (by decide)
    refine OnlyChanges.comp ?_ (frame_report _ _) (by decide)
    exact frame_set_reports s _
  · exact OnlyChanges.refl _ s

theorem frame_fetchState (n : Nat) (s : State) : OnlyChanges [.reports] s (fetchState n s) := by
  unfold fetchState
  dsimp only
  split
  · refine OnlyChanges.comp ?_ (frame_judgeResumption _) (by decide)
    exact frame_set_reports s _
  · exact frame_set_reports s _

theorem frame_acknowledge (s : State) : OnlyChanges [.reports] s (acknowledge s) := by
  unfold acknowledge
  split
  · refine OnlyChanges.comp ?_ (frame_judgeResumption _) (by decide)
    exact frame_set_reports s _
  · exact OnlyChanges.refl _ s

theorem tableKept_applyPolicy (q : Policy) (s : State) : TableKept s (applyPolicy q s) := by
  unfold applyPolicy
  dsimp only
  refine TableKept.trans ?_ (tableKept_set_control _ _ (Or.inl rfl) rfl)
  exact tableKept_mapPorts s fun _ _ => ⟨rfl, rfl, rfl, rfl⟩

theorem tableKept_lessonRefill (s : State) : TableKept s (lessonRefill s) :=
  tableKept_mapPorts s fun _ r => by split <;> exact ⟨rfl, rfl, rfl, rfl⟩

theorem tableKept_leaveSweep (p : Port) (s : State) : TableKept s (leaveSweep p s) :=
  tableKept_set_control s _ (Or.inl rfl) rfl

theorem tableKept_sampleKey (level : Bool) (s : State) : TableKept s (sampleKey level s) :=
  .of_frame (frame_sampleKey level s) (by decide) (by decide) (by decide)

/-! ### A property of the Port Table over every step -/

/-- A property of the Port Table that the events which change the table keep: a reset and the end of the load, the
link events and the absence of a port, a role change, an override that OVRD may set, and the two changes of mode that
leave MANAGED. -/
structure TableInvariant (I : State → Prop) : Prop where
  kept : ∀ {s t}, TableKept s t → I s → I t
  reset : ∀ c baud s, I (resetTo c baud s)
  load : ∀ {s}, s.control.loading = true → I s → I (loadDone s)
  linkUp : ∀ p {s}, s.control.loading = false → (s.port p).present = true → I s → I (linkUpEvent p s)
  linkDown : ∀ p {s}, I s → I (linkDownEvent p s)
  absent : ∀ p {s}, I s → I (absence p s)
  roles : ∀ table {s}, I s → I (roleChange table s)
  override : ∀ p o {s}, s.control.mode = .managed → (s.port p).present = true → (s.port p).role ≠ .unused → I s →
    I (setOverride p o s)
  rest : ∀ c {s}, restAllowed s = true → I s → I (setMode .rest c s)
  autonomous : ∀ c {s}, I s → I (clearOverrides (setMode .autonomous c s))

section
variable {I : State → Prop} (h : TableInvariant I)
include h

theorem TableInvariant.enterAutonomous (c : ModeCause) {s : State} (hs : I s) : I (enterAutonomous c s) :=
  h.roles _ (h.kept (tableKept_applyPolicy _ _) (h.autonomous c hs))

theorem TableInvariant.hostLostEnds {s : State} (hs : I s) : I (hostLostEnds s) := by
  unfold Machine.hostLostEnds
  split
  · exact h.enterAutonomous _ hs
  · exact hs

theorem TableInvariant.settleInterval {s : State} (hs : I s) : I (settleInterval s) := by
  have strobes (t : State) : TableKept t (strobesSent t) :=
    .of_frame (frame_strobesSent t) (by decide) (by decide) (by decide)
  have rounds : I (takeRound (expireDue s)) :=
    h.kept ((tableKept_expireDue s).trans (tableKept_takeRound _)) hs
  unfold Machine.settleInterval
  dsimp only
  generalize allPorts = l
  exact h.kept (strobes _) (h.hostLostEnds (h.kept (TableKept.foldl (fun u p => tableKept_portEnds p u) l _) rounds))

theorem TableInvariant.startDone {s : State} (hs : I s) : I (startDone s) := by
  have starts (t : State) (k : IntervalClock) :
      TableKept t (roundSteps (handTx (.strobe 0) { t with clock := k })) :=
    (TableKept.of_frame (frame_set_clock t k) (by decide) (by decide) (by decide)).trans
      ((tableKept_handTx _ _).trans (tableKept_roundSteps _))
  unfold Machine.startDone
  refine h.kept (starts _ _) ?_
  split
  · exact h.kept (tableKept_setMode_managed _ s) hs
  · exact h.enterAutonomous _ hs

/-! #### Inbound records -/

theorem TableInvariant.linkReport (p : Port) (up : Bool) {s : State} (loaded : s.control.loading = false)
    (hs : I s) : I (linkReport p up s) := by
  unfold Machine.linkReport
  split
  · next report =>
    split
    · exact h.linkUp p loaded report.1 hs
    · exact h.linkDown p hs
  · exact hs

theorem TableInvariant.sweepAnswered (p : Port) {s : State} (hs : I s) : I (sweepAnswered p s) := by
  have left : I (leaveSweep p s) := h.kept (tableKept_leaveSweep p s) hs
  unfold Machine.sweepAnswered
  split
  · split
    · exact h.startDone left
    · exact left
  · exact hs

theorem TableInvariant.ackEnds (o : Outstanding) (ok up : Bool) {s : State} (loaded : s.control.loading = false)
    (hs : I s) : I (ackEnds o ok up s) := by
  have reported {t : State} (k : TableKept s t) : I (Machine.linkReport o.port up t) :=
    h.linkReport _ _ (k.loading.trans loaded) (h.kept k hs)
  unfold Machine.ackEnds
  split
  · refine h.sweepAnswered _ ?_
    split
    · exact reported (tableKept_setportConfirmed _ _)
    · exact h.absent _ hs
  · refine reported ?_
    split
    · exact .of_frame (frame_probeAcked _ _ _) (by decide) (by decide) (by decide)
    · exact .of_frame (frame_probeEnded _ _ _) (by decide) (by decide) (by decide)

theorem TableInvariant.ackTaken (f : PortField) (ok up : Bool) {s : State} (loaded : s.control.loading = false)
    (hs : I s) : I (ackTaken f ok up s) := by
  have seen : TableKept s (ackSeen s) := tableKept_set_arbiter s _
  have stray : I (strayAck (ackSeen s)) := h.kept (seen.trans (tableKept_set_glink _ _)) hs
  have ended : TableKept s (endCommand (ackSeen s)) := seen.trans (tableKept_set_glink _ _)
  unfold Machine.ackTaken
  split
  · exact stray
  · split
    · exact h.ackEnds _ _ _ (ended.loading.trans loaded) (h.kept ended hs)
    · exact stray

/-- A valid record reaches its block only once the load is done. -/
theorem TableInvariant.inbound (k : InboundKind) (f : PortField) {act : State → State} {s : State}
    (acts : ∀ t, t.control.loading = false → I t → I (act t)) (hs : I s) : I (inbound k f act s) := by
  have done : TableKept s (recordDone s) := tableKept_set_glink s _
  have returned : TableKept s (linkReturns f k (recordDone s)) := done.trans (tableKept_linkReturns f k _)
  unfold Machine.inbound
  split
  · exact h.kept done hs
  · next loaded =>
    exact acts _ (returned.loading.trans (Bool.eq_false_iff.mpr loaded)) (h.kept returned hs)

/-! #### Requests -/

theorem TableInvariant.takeFrame (body : List Byte) {s : State} (hs : I s) : I (takeFrame body s) := by
  have taken (t : State) (m : ManagementLine) :
      TableKept t { t with mgmt := m, control := { t.control with hostLost := 0, hostLostDue := false } } :=
    (tableKept_set_mgmt t m).trans (tableKept_set_control _ _ (Or.inl rfl) rfl)
  exact h.kept (taken _ _) (h.hostLostEnds hs)

theorem TableInvariant.modeTo (m : Mode) {s : State} (hs : I s) : I (modeTo m s).state := by
  unfold Machine.modeTo
  split
  · exact hs
  · split
    · exact h.enterAutonomous _ hs
    · exact h.kept (tableKept_setMode_managed _ s) hs
    · split
      · next allowed => exact h.rest _ allowed.2 hs
      · exact hs
    · exact hs

/-- What an owning block answers to a request that the mode serves. -/
theorem TableInvariant.act (k : RequestKind) (fields : List Byte) {s : State} (served : s.control.mode.serves k = true)
    (hs : I s) : I (k.act fields s).state := by
  have reports (t : State) (u : ReportUnit) (ht : I t) : I { t with reports := u } :=
    h.kept (tableKept_set_reports t u) ht
  cases k with
  | stat =>
    have cleared : TableKept s (clearCounts s) := .of_frame (frame_clearCounts s) (by decide) (by decide) (by decide)
    show I (doStat fields s).state
    unfold doStat
    split
    · exact hs
    · split
      · exact hs
      · split
        · exact h.kept cleared hs
        · exact hs
    · exact hs
  | portq =>
    show I (doPortq fields s).state
    unfold doPortq
    split
    · split <;> exact hs
    · exact hs
  | fetch =>
    show I (doFetch fields s).state
    unfold doFetch
    split
    · exact h.kept (.of_frame (frame_fetchState _ s) (by decide) (by decide) (by decide)) hs
    · exact hs
  | ackgap =>
    show I (doAckgap fields s).state
    unfold doAckgap
    split
    · exact h.kept (.of_frame (frame_acknowledge s) (by decide) (by decide) (by decide)) hs
    · exact hs
  | trapclr =>
    show I (doTrapclr fields s).state
    unfold doTrapclr
    split
    · exact h.kept (.of_frame (frame_set_trap s _) (by decide) (by decide) (by decide)) hs
    · exact hs
  | mode =>
    show I (doMode fields s).state
    unfold doMode
    split
    · split
      · exact h.modeTo _ hs
      · exact hs
    · exact hs
  | setp =>
    show I (doSetp fields s).state
    unfold doSetp
    split
    · exact h.kept (tableKept_applyPolicy _ s) hs
    · exact hs
  | roles =>
    show I (doRoles fields s).state
    unfold doRoles
    split
    · exact hs
    · split
      · exact hs
      · split
        · unfold rolesCodes
          split
          · exact hs
          · exact h.roles _ hs
        · exact hs
  | ovrd =>
    show I (doOvrd fields s).state
    unfold doOvrd
    split
    · split
      · unfold ovrdPort
        split
        · exact hs
        · next set =>
          obtain ⟨present, guarded⟩ := not_or.mp set
          exact h.override _ _ (by simpa [Mode.serves] using served) (Bool.not_eq_false _ ▸ present) guarded hs
      · exact hs
    · exact hs
  | lesson =>
    show I (doLesson fields s).state
    unfold doLesson
    split
    · exact h.kept (tableKept_lessonRefill s) hs
    · exact hs
  | store =>
    show I (doStore fields s).state
    unfold doStore
    split
    · split
      · unfold storeArea
        split
        · exact hs
        · split
          · exact hs
          · exact h.kept (.of_frame (frame_startWrite _ s) (by decide) (by decide) (by decide)) hs
      · exact hs
    · exact hs
  | watch =>
    show I (doWatch fields s).state
    unfold doWatch
    split
    · split
      · exact hs
      · split
        · exact hs
        · exact reports _ _ hs
    · exact hs
  | extend =>
    show I (doExtend fields s).state
    unfold doExtend
    split
    · split
      · exact hs
      · split
        · exact hs
        · exact reports _ _ hs
    · exact hs
  | unwatch =>
    show I (doUnwatch fields s).state
    unfold doUnwatch
    split
    · split
      · exact hs
      · exact reports _ _ (h.kept (tableKept_report _ s) hs)
    · exact hs
  | reset =>
    show I (doReset fields s).state
    unfold doReset
    split
    · exact h.kept (tableKept_set_mgmt s _) hs
    · exact hs

theorem TableInvariant.ifServed (k : RequestKind) (fields : List Byte) {s : State} (hs : I s) :
    I (ifServed k (k.act fields) s).state := by
  unfold Machine.ifServed
  split
  · next served => exact h.act k fields served hs
  · exact hs

theorem TableInvariant.sendReply (kind : Byte) {a : Answer} (hs : I a.state) : I (sendReply kind a) :=
  h.kept (tableKept_set_mgmt _ _) hs

/-- A request frame, carried out or refused as busy. -/
theorem TableInvariant.request (kind : Byte) (fields : List Byte) {act : State → Answer} {s : State}
    (acts : ∀ t, I t → I (act t).state) (hs : I s) : I (request kind fields act s) := by
  unfold Machine.request
  split
  · split
    · exact h.sendReply _ (acts _ (h.takeFrame _ hs))
    · exact h.kept (.of_frame (frame_frameBusy _ s) (by decide) (by decide) (by decide)) hs
  · exact hs

/-- A character, with the judgement of the frame it may complete. -/
theorem TableInvariant.character (b : Byte) (stop : CharacterEnd) {s : State} (hs : I s) :
    I (judgeComplete (receiveChar b stop.framingFault (sampleKey stop.key s))) := by
  have received : TableKept s (receiveChar b stop.framingFault (sampleKey stop.key s)) :=
    (tableKept_sampleKey _ s).trans (.of_frame (frame_receiveChar _ _ _) (by decide) (by decide) (by decide))
  have hr := h.kept received hs
  unfold judgeComplete
  split
  · exact hr
  · have hc := h.kept (tableKept_set_mgmt _ { (receiveChar b stop.framingFault (sampleKey stop.key s)).mgmt with
      complete := none }) hr
    unfold judgeFrame
    split
    · exact h.kept (.of_frame (frame_frameCheckFails _) (by decide) (by decide) (by decide)) hc
    · split
      · unfold serve
        split
        · exact hc
        · refine h.sendReply _ ?_
          unfold answerTo
          split
          · exact h.ifServed _ _ (h.takeFrame _ hc)
          · exact h.takeFrame _ hc
      · exact h.kept (.of_frame (frame_frameBusy _ _) (by decide) (by decide) (by decide)) hc

end

end Sys2Proof.Machine
end

section
/-! SUPPORT. A property of the Port Table over every step, and the two that the statements name: the order list follows
the links (R8), and overrides stand only in MANAGED (R2, R103). -/

namespace Sys2Proof.Machine

/-! ### The commands -/

/-- The commands of the interval, the link receiver, the command channel and the stored settings that leave the Port
Table alone. -/
def quiet (c : Instr) : Bool :=
  match c with
  | .startPacingAllowance | .roundStart | .probeExpiry | .throttleHoldExpiry _ | .holdExpiry _ | .strikeDecay _
  | .framingError _ | .unknownRecord _ | .ackTimeout | .setport | .inject | .commandLastBit | .gapTimeout
  | .checkFail _ _ | .rejectBusy _ _ | .writeCompletion _ | .keyFall | .strobeLastBit => true
  | _ => false

theorem tableKept_ite {c : Prop} [Decidable c] {s t : State} (h : TableKept s t) :
    TableKept s (if c then t else s) := by
  split
  · exact h
  · exact TableKept.refl s

/-- The due expiries and judgements leave the Port Table alone. -/
theorem tableKept_judged (p : Port) {s t : State} {l : List Part} (h : Kept (lowerPortsEnd p s) t)
    (f : OnlyChanges l (lowerPortsEnd p s) t) (order : Part.order ∉ l) (control : Part.control ∉ l) : TableKept s t :=
  (tableKept_lowerPortsEnd p s).trans (.of_kept h f order control)

/-- A quiet command leaves the Port Table alone. -/
theorem exec_tableKept {c : Instr} (h : quiet c = true) {s t : State} (run : exec c s = .next t) : TableKept s t := by
  cases c
  case startPacingAllowance => cases run; exact tableKept_ite (tableKept_paceTick s)
  case roundStart => cases run; exact tableKept_ite ((tableKept_expireDue s).trans (tableKept_takeRound _))
  case probeExpiry =>
    cases run
    split
    · exact TableKept.refl s
    · exact .of_kept (kept_expireSlot _ s) (frame_expireSlot _ s) (by decide) (by decide)
  case throttleHoldExpiry p =>
    cases run
    exact tableKept_ite (tableKept_judged p (kept_throttleEnds p _) (frame_throttleEnds p _) (by decide) (by decide))
  case holdExpiry p =>
    cases run
    exact tableKept_ite (tableKept_judged p (kept_holdEnds p _) (frame_holdEnds p _) (by decide) (by decide))
  case strikeDecay p =>
    cases run
    exact .of_kept (kept_decayEnds p s) (frame_decayEnds p s) (by decide) (by decide)
  case framingError bits => cases run; exact tableKept_ite (tableKept_set_glink s _)
  case unknownRecord w => cases run; exact tableKept_ite (tableKept_set_glink s _)
  case ackTimeout =>
    cases run
    split
    · exact tableKept_ite (tableKept_commandTimeout _ s)
    · exact TableKept.refl s
  case setport =>
    cases run
    split
    · exact tableKept_grantSetport _ s
    · exact TableKept.refl s
    · exact TableKept.refl s
  case inject =>
    cases run
    split
    · exact .of_frame (frame_grantProbe _ s) (by decide) (by decide) (by decide)
    · exact TableKept.refl s
    · exact TableKept.refl s
  case commandLastBit =>
    have sent : TableKept s (commandSent s) := .of_frame (frame_commandSent s) (by decide) (by decide) (by decide)
    cases run
    split
    · exact sent
    · exact sent
    · exact TableKept.refl s
    · exact TableKept.refl s
  case strobeLastBit =>
    cases run
    split
    · exact .of_frame (frame_strobeSent s) (by decide) (by decide) (by decide)
    · exact TableKept.refl s
    · exact TableKept.refl s
    · exact TableKept.refl s
  case gapTimeout =>
    cases run
    split
    · exact TableKept.refl s
    · exact .of_frame (frame_frameTruncated s) (by decide) (by decide) (by decide)
  case checkFail body check =>
    cases run
    exact tableKept_ite (.of_frame (frame_frameCheckFails s) (by decide) (by decide) (by decide))
  case rejectBusy kind fields =>
    cases run
    exact tableKept_ite (.of_frame (frame_frameBusy kind s) (by decide) (by decide) (by decide))
  case writeCompletion took =>
    cases run
    exact .of_frame (frame_writeEnds took s) (by decide) (by decide) (by decide)
  case keyFall =>
    cases run
    exact .of_frame (frame_keyFalls s) (by decide) (by decide) (by decide)
  all_goals cases h

/-- A request command samples KEY, where it carries one, and then takes the path of every request. -/
theorem exec_request {c : Instr} {kind : Byte} {fields : List Byte} (h : requestOf c = some (kind, fields)) (s : State) :
    ∃ k : RequestKind, exec c s = .next (request kind fields (ifServed k (k.act fields)) (keyRead c s)) := by
  cases c
  case stat => cases h; exact ⟨.stat, rfl⟩
  case portq => cases h; exact ⟨.portq, rfl⟩
  case fetch => cases h; exact ⟨.fetch, rfl⟩
  case ackgap => cases h; exact ⟨.ackgap, rfl⟩
  case trapclr => cases h; exact ⟨.trapclr, rfl⟩
  case mode => cases h; exact ⟨.mode, rfl⟩
  case setp => cases h; exact ⟨.setp, rfl⟩
  case roles => cases h; exact ⟨.roles, rfl⟩
  case ovrd => cases h; exact ⟨.ovrd, rfl⟩
  case lesson => cases h; exact ⟨.lesson, rfl⟩
  case store => cases h; exact ⟨.store, rfl⟩
  case watch => cases h; exact ⟨.watch, rfl⟩
  case extend => cases h; exact ⟨.extend, rfl⟩
  case unwatch => cases h; exact ⟨.unwatch, rfl⟩
  case reset => cases h; exact ⟨.reset, rfl⟩
  all_goals cases h

theorem tableKept_keyRead (c : Instr) (s : State) : TableKept s (keyRead c s) := by
  unfold keyRead
  split
  · exact tableKept_sampleKey _ s
  · exact tableKept_sampleKey _ s
  · exact tableKept_sampleKey _ s
  · exact TableKept.refl s

section
variable {I : State → Prop} (h : TableInvariant I)
include h

/-- A record with a port field reaches its block, or is counted for its bad port. -/
theorem TableInvariant.record (k : InboundKind) (f : PortField) {act : Port → State → State} {s : State}
    (acts : ∀ p t, t.control.loading = false → I t → I (act p t)) (hs : I s) :
    I (Machine.inbound k f (fun t => match portOf f with | some p => act p t | none => badPort t) s) := by
  refine h.inbound k f (fun t loaded ht => ?_) hs
  split
  · exact acts _ t loaded ht
  · exact h.kept (tableKept_set_glink t _) ht

/-- Every command keeps a property of the Port Table. -/
theorem TableInvariant.exec {c : Instr} {s t : State} (hs : I s) (run : Machine.exec c s = .next t) : I t := by
  by_cases still : quiet c = true
  · exact h.kept (exec_tableKept still run) hs
  rcases requested : requestOf c with _ | ⟨kind, fields⟩
  case some =>
    obtain ⟨k, e⟩ := exec_request requested s
    rw [e] at run
    cases run
    exact h.request _ _ (fun t ht => h.ifServed k fields ht) (h.kept (tableKept_keyRead c s) hs)
  case none =>
  cases c
  case powerReset baud => cases run; exact h.reset _ _ _
  case pinReset baud => cases run; exact h.reset _ _ _
  case settingsStoreLoad =>
    cases run
    split
    · next loading => exact h.load loading hs
    · exact hs
  case intervalEvent =>
    cases run
    split
    · exact hs
    · exact h.kept (tableKept_intervalTick _) (h.settleInterval hs)
  case hostLost => cases run; exact h.hostLostEnds hs
  case digest f stamp n =>
    cases run
    exact h.record .digest f (fun p t _ => h.kept (tableKept_digestAtMeter p stamp n.toNat t)) hs
  case catchRecord y x r d =>
    cases run
    exact h.inbound _ _ (fun t _ => h.kept (tableKept_catchAtProbe y x r d t)) hs
  case link f up =>
    cases run
    exact h.record .link f (fun p t loaded ht => h.linkReport p up loaded ht) hs
  case ack f ok up =>
    cases run
    exact h.inbound _ _ (fun t loaded ht => h.ackTaken f ok up loaded ht) hs
  case character b stop => cases run; exact h.character b stop hs
  case replyEnd baud =>
    cases run
    split
    · split
      · exact h.reset _ _ _
      · exact h.kept (.of_frame (frame_replyEnds s) (by decide) (by decide) (by decide)) hs
    · exact hs
  case unknown kind fields =>
    cases run
    split
    · exact hs
    · exact h.request _ _ (fun t ht => ht) hs
  all_goals cases requested <;> exact absurd rfl still

theorem TableInvariant.step {s t : State} (hs : I s) (run : Machine.step s = .next t) : I t := by
  unfold Machine.step at run
  split at run
  · cases run; exact hs
  · next rest _ =>
    exact h.exec (h.kept (.of_frame (frame_set_pending s rest) (by decide) (by decide) (by decide)) hs) run

end

end Sys2Proof.Machine
end

section
/-! SUPPORT. The order list holds the linked ports, each once (R8), and overrides stand only in MANAGED, on present ports
that are not UNUSED (R2, R103). -/

namespace Sys2Proof.Machine

/-! ### What the link events leave of the other ports -/

/-- The port's role, presence, link flag and override. -/
structure PortRec.SeatSame (r u : PortRec) : Prop where
  role : u.role = r.role
  present : u.present = r.present
  linkUp : u.linkUp = r.linkUp
  override : u.override = r.override

theorem PortRec.SeatSame.refl (r : PortRec) : r.SeatSame r := ⟨rfl, rfl, rfl, rfl⟩

theorem GoneAtMost.seat {s t : State} (h : GoneAtMost s t) (p : Port) : (s.port p).SeatSame (t.port p) := by
  obtain ⟨kept, same⟩ := h.role p
  exact ⟨same.role, kept.table.1, kept.table.2, same.override⟩

theorem linkUpEvent_seat (p : Port) (s : State) :
    ({ s.port p with linkUp := true } : PortRec).SeatSame ((linkUpEvent p s).port p) := by
  rw [linkUpEvent_port, if_pos rfl, PortRec.raised]
  split
  · obtain ⟨role, present, linkUp, override⟩ :=
      (enter_entered ({ s.port p with linkUp := true } : PortRec) .listen).table
    exact ⟨role, present, linkUp, override⟩
  · exact PortRec.SeatSame.refl _

theorem linkDownTo_other (g : GuardState) (c : StateCause) {p q : Port} (s : State) (hq : q ≠ p) :
    (s.port q).SeatSame ((linkDownTo g c p s).port q) := by
  have down : (portDown g c p s).port q = s.port q := by rw [portDown_port, if_neg hq]
  rw [linkDownTo_eq, ← down]
  exact (goneAtMost_portCleared p _).seat q

theorem linkDownEvent_seat (p : Port) (s : State) :
    ({ s.port p with linkUp := false } : PortRec).SeatSame ((linkDownEvent p s).port p) := by
  have low := lowered_spec .down (s.rowAt p).bmax (s.port p)
  obtain ⟨role, present, override, -⟩ := low.table
  rw [linkDownEvent, linkDownTo_port _ _ _ (Or.inl rfl)]
  exact ⟨role, present, low.linkUp, override⟩

theorem absence_other {p q : Port} (s : State) (hq : q ≠ p) : (s.port q).SeatSame ((absence p s).port q) := by
  have other : (s.modPort p PortRec.absented).port q = s.port q := port_modPort_ne s _ hq
  rw [absence_eq]
  split
  · have down := linkDownTo_other .disabled .absent (s.modPort p PortRec.absented) hq
    rwa [other] at down
  · split
    · rw [other]; exact PortRec.SeatSame.refl _
    · rw [goPlain_port, if_neg hq, other]; exact PortRec.SeatSame.refl _

theorem clearOverrides_override (s : State) (p : Port) : ((clearOverrides s).port p).override = .noOverride := by
  rw [clearOverrides, port_mapPorts]
  exact (deriveWanted_kept _).override

theorem clearOverrides_linkUp (s : State) (p : Port) : ((clearOverrides s).port p).linkUp = (s.port p).linkUp := by
  rw [clearOverrides, port_mapPorts]
  exact (deriveWanted_kept _).linkUp

theorem setOverride_port (p q : Port) (o : Override) (s : State) :
    ({ s.port q with override := if q = p then o else (s.port q).override } : PortRec).SeatSame
      ((setOverride p o s).port q) := by
  rw [setOverride, port_modPort]
  split
  · next e =>
    subst e
    have kept := deriveWanted_kept ({ s.port q with override := o } : PortRec)
    exact ⟨kept.role, kept.present, kept.linkUp, kept.override⟩
  · exact PortRec.SeatSame.refl _

theorem setMode_port (m : Mode) (c : ModeCause) (s : State) (p : Port) : (setMode m c s).port p = s.port p :=
  port_congr (frame_setMode m c s .ports (by decide)) p

theorem setMode_loading (m : Mode) (c : ModeCause) (s : State) :
    (setMode m c s).control.loading = s.control.loading := by
  have said (b : ReportBody) (t : State) : (report b t).control = t.control := frame_report b t .control (by decide)
  rw [setMode, said]

theorem resetTo_port (c : ResetCause) (baud : Bool) (s : State) (p : Port) :
    (resetTo c baud s).port p = startRecord factoryPolicy (factoryRole p) :=
  (port_congr rfl p).trans (reset_port p)

/-! ### The order list -/

theorem appendOrder_nodup {p : Port} {l : List Port} (h : l.Nodup) : (appendOrder p l).Nodup := by
  rw [appendOrder, List.nodup_append]
  refine ⟨h.filter _, List.nodup_singleton p, fun a ha b hb => ?_⟩
  rw [List.mem_singleton.mp hb]
  exact of_decide_eq_true (List.mem_filter.mp ha).2

theorem mem_appendOrder {p q : Port} {l : List Port} : q ∈ appendOrder p l ↔ q = p ∨ q ∈ l := by
  by_cases h : q = p <;> simp [appendOrder, h]

theorem mem_removeOrder {p q : Port} {l : List Port} : q ∈ removeOrder p l ↔ q ≠ p ∧ q ∈ l := by
  rw [removeOrder, List.mem_filter, decide_eq_true_iff, and_comm]

/-- The list and the link flags are kept, and a load is not begun. -/
theorem OrderFits.of_same {s t : State} (h : OrderFits s) (order : t.order = s.order)
    (linkUp : ∀ p, (t.port p).linkUp = (s.port p).linkUp) (loading : t.control.loading = s.control.loading) :
    OrderFits t where
  once := order ▸ h.once
  member p := by rw [order, linkUp]; exact h.member p
  loading l := order.trans (h.loading (loading ▸ l))

/-- The port leaves the list as its link goes down. -/
theorem OrderFits.of_removed {s t : State} (h : OrderFits s) {p : Port} (order : t.order = removeOrder p s.order)
    (self : (t.port p).linkUp = false) (other : ∀ q, q ≠ p → (t.port q).linkUp = (s.port q).linkUp)
    (loading : t.control.loading = s.control.loading) : OrderFits t where
  once := by rw [order]; exact h.once.filter _
  member q := by
    rw [order, mem_removeOrder]
    by_cases e : q = p
    · simp [e, self]
    · simp [e, other q e, h.member q]
  loading l := by rw [order, h.loading (loading ▸ l)]; rfl

/-- The port joins the list as its link goes up. -/
theorem OrderFits.of_appended {s t : State} (h : OrderFits s) {p : Port} (order : t.order = appendOrder p s.order)
    (self : (t.port p).linkUp = true) (other : ∀ q, q ≠ p → (t.port q).linkUp = (s.port q).linkUp)
    (loaded : t.control.loading = false) : OrderFits t where
  once := by rw [order]; exact appendOrder_nodup h.once
  member q := by
    rw [order, mem_appendOrder]
    by_cases e : q = p
    · simp [e, self]
    · simp [e, other q e, h.member q]
  loading l := by rw [loaded] at l; cases l

theorem orderFits_resetTo (c : ResetCause) (baud : Bool) (s : State) : OrderFits (resetTo c baud s) where
  once := List.nodup_nil
  member p := by
    rw [resetTo_port]
    exact iff_of_false List.not_mem_nil Bool.false_ne_true
  loading _ := rfl

theorem orderFits_loadDone {s : State} (loading : s.control.loading = true) (h : OrderFits s) :
    OrderFits (loadDone s) := by
  have kept : (loadDone s).order = s.order := frame_loadDone s .order (by decide)
  have empty := kept.trans (h.loading loading)
  refine ⟨empty ▸ List.nodup_nil, fun p => ?_, fun _ => empty⟩
  rw [empty, loadDone_port]
  exact iff_of_false List.not_mem_nil Bool.false_ne_true

theorem orderFits_linkUpEvent (p : Port) {s : State} (loaded : s.control.loading = false) (h : OrderFits s) :
    OrderFits (linkUpEvent p s) := by
  refine h.of_appended (linkUpEvent_order p s) (linkUpEvent_seat p s).linkUp (fun q hq => ?_) ?_
  · rw [linkUpEvent_port, if_neg hq]
  · rw [linkUpEvent_control, ← wake_eq_woken]
    exact (tableKept_wake .linkUp p s).loading.trans loaded

theorem orderFits_linkDownEvent (p : Port) {s : State} (h : OrderFits s) : OrderFits (linkDownEvent p s) := by
  have control : (linkDownEvent p s).control = s.control := frame_linkDownEvent p s .control (by decide)
  refine h.of_removed (linkDownTo_order ..) (linkDownEvent_seat p s).linkUp
    (fun q hq => (linkDownTo_other .down .linkDown s hq).linkUp) ?_
  rw [control]

theorem orderFits_absence (p : Port) {s : State} (h : OrderFits s) : OrderFits (absence p s) := by
  have control : (absence p s).control = s.control := frame_absence p s .control (by decide)
  have loading : (absence p s).control.loading = s.control.loading := by rw [control]
  have other q (hq : q ≠ p) := (absence_other s hq).linkUp
  obtain ⟨-, self, -⟩ := absence_port p s
  have order := absence_order p s
  split at order
  · exact h.of_removed order self other loading
  · next down =>
    refine h.of_same order (fun q => ?_) loading
    by_cases e : q = p
    · rw [e, self, Bool.eq_false_iff.mpr down]
    · exact other q e

theorem orderFits_roleChange (table : Port → Role) {s : State} (h : OrderFits s) :
    OrderFits (roleChange table s) := by
  have frame := frame_roleChange table s
  have control : (roleChange table s).control = s.control := frame .control (by decide)
  exact h.of_same (frame .order (by decide)) (fun p => (roleChange_all table s p).2.table.2) (by rw [control])

theorem orderFits_setOverride (p : Port) (o : Override) {s : State} (h : OrderFits s) :
    OrderFits (setOverride p o s) :=
  h.of_same (modPort_order ..) (fun q => (setOverride_port p q o s).linkUp) (by rw [setOverride, modPort_control])

theorem orderFits_setMode (m : Mode) (c : ModeCause) {s : State} (h : OrderFits s) : OrderFits (setMode m c s) :=
  h.of_same (frame_setMode m c s .order (by decide)) (fun p => by rw [setMode_port]) (setMode_loading m c s)

theorem orderFits_clearOverrides {s : State} (h : OrderFits s) : OrderFits (clearOverrides s) :=
  h.of_same (mapPorts_order ..) (clearOverrides_linkUp s) (by rw [clearOverrides, mapPorts_control])

theorem tableInvariant_orderFits : TableInvariant OrderFits where
  kept k h := h.of_same k.order k.linkUp k.loading
  reset := orderFits_resetTo
  load := orderFits_loadDone
  linkUp p _ loaded _ := orderFits_linkUpEvent p loaded
  linkDown := orderFits_linkDownEvent
  absent := orderFits_absence
  roles := orderFits_roleChange
  override p o _ _ _ _ := orderFits_setOverride p o
  rest c _ _ := orderFits_setMode .rest c
  autonomous c _ h := orderFits_clearOverrides (orderFits_setMode .autonomous c h)

/-- Settles O53: every step keeps the list, and only a link event or an absence changes it. -/
theorem orderListFollowsTheLinks : Obligations.OrderListFollowsTheLinks := by
  intro s s' fits run
  exact tableInvariant_orderFits.step fits run

/-! ### The overrides -/

/-- A mode other than MANAGED is an old one, and every override is gone or stands where it stood. -/
theorem OverridesFit.of_each {s t : State} (h : OverridesFit s)
    (mode : t.control.mode ≠ .managed → s.control.mode ≠ .managed)
    (each : ∀ p, (t.port p).override = .noOverride ∨
      (t.port p).role = (s.port p).role ∧ (t.port p).present = (s.port p).present ∧
        (t.port p).override = (s.port p).override) : OverridesFit t where
  managed m p := by
    rcases each p with none | ⟨-, -, override⟩
    · exact none
    · exact override.trans (h.managed (mode m) p)
  guarded p unseated := by
    rcases each p with none | ⟨role, present, override⟩
    · exact none
    · rw [role, present] at unseated
      exact override.trans (h.guarded p unseated)

theorem OverridesFit.of_none {s : State} (h : ∀ p, (s.port p).override = .noOverride) : OverridesFit s :=
  ⟨fun _ p => h p, fun p _ => h p⟩

theorem restAllowed_override {s : State} (h : restAllowed s = true) (p : Port) :
    (s.port p).override = .noOverride := by
  obtain ⟨all, -⟩ := Bool.and_eq_true_iff.mp h
  obtain ⟨-, none⟩ := Bool.and_eq_true_iff.mp (List.all_eq_true.mp all p (mem_allPorts p))
  exact of_decide_eq_true none

theorem linkUpEvent_mode {p : Port} {s : State} (h : (linkUpEvent p s).control.mode ≠ .managed) :
    s.control.mode ≠ .managed := by
  rw [linkUpEvent_control, ← wake_eq_woken] at h
  rwa [(tableKept_wake .linkUp p s).mode.resolve_right h] at h

theorem tableInvariant_overridesFit : TableInvariant OverridesFit where
  kept k h := by
    refine h.of_each (fun m => ?_) fun p => Or.inr ⟨k.role p, k.present p, k.override p⟩
    rwa [k.mode.resolve_right m] at m
  reset c baud s := OverridesFit.of_none fun p => by rw [resetTo_port]; rfl
  load {s} _ _ := OverridesFit.of_none fun p => by rw [loadDone_port]; rfl
  linkUp p {s} _ _ h := by
    refine h.of_each (fun m => linkUpEvent_mode m) fun q => Or.inr ?_
    by_cases e : q = p
    · rw [e]
      have seat := linkUpEvent_seat p s
      exact ⟨seat.role, seat.present, seat.override⟩
    · rw [linkUpEvent_port, if_neg e]
      exact ⟨rfl, rfl, rfl⟩
  linkDown p {s} h := by
    have control : (linkDownEvent p s).control = s.control := frame_linkDownEvent p s .control (by decide)
    refine h.of_each (fun m => control ▸ m) fun q => Or.inr ?_
    by_cases e : q = p
    · rw [e]
      have seat := linkDownEvent_seat p s
      exact ⟨seat.role, seat.present, seat.override⟩
    · have seat := linkDownTo_other .down .linkDown s e
      exact ⟨seat.role, seat.present, seat.override⟩
  absent p {s} h := by
    have control : (absence p s).control = s.control := frame_absence p s .control (by decide)
    refine h.of_each (fun m => control ▸ m) fun q => ?_
    by_cases e : q = p
    · rw [e]
      exact Or.inl (absence_port p s).1.override
    · have seat := absence_other s e
      exact Or.inr ⟨seat.role, seat.present, seat.override⟩
  roles table {s} h := by
    have control : (roleChange table s).control = s.control := frame_roleChange table s .control (by decide)
    refine h.of_each (fun m => control ▸ m) fun p => ?_
    by_cases changed : Changed table s p
    · exact Or.inl (roleChange_changed changed).1
    · have same := roleChange_unchanged changed
      exact Or.inr ⟨same.role, (roleChange_all table s p).2.table.1, same.override⟩
  override p o {s} managed present guarded h := by
    refine ⟨fun m => absurd managed m, fun q unseated => ?_⟩
    have seat := setOverride_port p q o s
    rw [seat.role, seat.present] at unseated
    by_cases e : q = p
    · subst e
      simp [present, guarded] at unseated
    · rw [seat.override, if_neg e]
      exact h.guarded q unseated
  rest c {s} allowed _ := OverridesFit.of_none fun p => by
    rw [setMode_port]; exact restAllowed_override allowed p
  autonomous c {s} _ := OverridesFit.of_none fun p => clearOverrides_override _ p

/-- Settles O60: only OVRD sets an override, in MANAGED; each way out of MANAGED clears them or asks that there be
none. -/
theorem overridesOnlyInManaged : Obligations.OverridesOnlyInManaged := by
  intro s s' fits run
  exact tableInvariant_overridesFit.step fits run

end Sys2Proof.Machine
end

section
/-! SUPPORT. What the Flood Meter's bounds and the policy's ranges depend on: the role, average, credit and trip flag
of each port, and the runtime policy.  The operations that leave all of them alone (R15, R16). -/

namespace Sys2Proof.Machine

/-! ### Operations that leave the meter alone -/

/-- Role, average, credit and trip flag of a record are kept. -/
structure PortRec.MeterSame (r u : PortRec) : Prop where
  role : u.role = r.role
  average : u.avgE = r.avgE
  credit : u.creditB = r.creditB
  trip : u.trip = r.trip

theorem PortRec.MeterSame.refl (r : PortRec) : r.MeterSame r := ⟨rfl, rfl, rfl, rfl⟩

theorem PortRec.MeterSame.trans {a b c : PortRec} (h : a.MeterSame b) (k : b.MeterSame c) : a.MeterSame c :=
  ⟨k.role.trans h.role, k.average.trans h.average, k.credit.trans h.credit, k.trip.trans h.trip⟩

theorem PortRec.Kept.meterSame {r u : PortRec} (h : r.Kept u) : r.MeterSame u := ⟨h.role, h.avgE, h.creditB, h.trip⟩

theorem PortRec.MeterSame.derived {r u : PortRec} (h : r.MeterSame u) : r.MeterSame u.deriveWanted :=
  h.trans (deriveWanted_kept u).meterSame

theorem enter_meterSame (r : PortRec) (g : GuardState) (n k : Nat) : r.MeterSame (r.enter g n k) :=
  have fields := enter_fields r g n k
  ⟨fields.role, fields.avgE, fields.creditB, fields.trip⟩

/-- The meter fields of every port are kept, and so is the runtime policy. -/
structure MeterSame (s t : State) : Prop where
  ports : ∀ p, (s.port p).MeterSame (t.port p)
  policy : t.control.policy = s.control.policy

theorem MeterSame.refl (s : State) : MeterSame s s := ⟨fun p => .refl (s.port p), rfl⟩

theorem MeterSame.trans {s t u : State} (h : MeterSame s t) (k : MeterSame t u) : MeterSame s u :=
  ⟨fun p => (h.ports p).trans (k.ports p), k.policy.trans h.policy⟩

theorem MeterSame.foldl {α : Type} {f : State → α → State} (h : ∀ s a, MeterSame s (f s a)) :
    ∀ (l : List α) (s : State), MeterSame s (l.foldl f s)
  | [], s => MeterSame.refl s
  | a :: l, s => (h s a).trans (MeterSame.foldl h l (f s a))

/-- A guard or evidence event that does not touch the Mode Unit. -/
theorem MeterSame.of_kept {l : List Part} {s t : State} (k : Kept s t) (h : OnlyChanges l s t)
    (control : Part.control ∉ l) : MeterSame s t :=
  ⟨fun p => (k p).meterSame, congrArg ModeUnit.policy (h .control control)⟩

/-- An operation that touches neither the records nor the Mode Unit. -/
theorem MeterSame.of_frame {l : List Part} {s t : State} (h : OnlyChanges l s t) (ports : Part.ports ∉ l)
    (control : Part.control ∉ l) : MeterSame s t :=
  MeterSame.of_kept (Kept.of_part h ports) h control

theorem meterSame_ite {c : Prop} [Decidable c] {s t : State} (h : MeterSame s t) :
    MeterSame s (if c then t else s) := by
  split
  · exact h
  · exact MeterSame.refl s

/-- A change of the Mode Unit that leaves the policy. -/
theorem meterSame_set_control (s : State) (x : ModeUnit) (policy : x.policy = s.control.policy) :
    MeterSame s { s with control := x } := ⟨fun _ => .refl _, policy⟩

theorem meterSame_set_mgmt (s : State) (m : ManagementLine) : MeterSame s { s with mgmt := m } :=
  .of_frame (frame_set_mgmt s m) (by decide) (by decide)

theorem meterSame_set_glink (s : State) (g : GuardLink) : MeterSame s { s with glink := g } :=
  .of_frame (frame_set_glink s g) (by decide) (by decide)

theorem meterSame_report (b : ReportBody) (s : State) : MeterSame s (report b s) :=
  .of_frame (frame_report b s) (by decide) (by decide)

theorem meterSame_setPort {s : State} {p : Port} {r : PortRec} (h : (s.port p).MeterSame r) :
    MeterSame s (s.setPort p r) := by
  refine ⟨fun q => ?_, rfl⟩
  rw [port_setPort]
  split
  · next e => exact e ▸ h
  · exact .refl _

theorem meterSame_modPort {s : State} {p : Port} {f : PortRec → PortRec}
    (h : (s.port p).MeterSame (f (s.port p))) : MeterSame s (s.modPort p f) := meterSame_setPort h

theorem meterSame_mapPorts {f : Port → PortRec → PortRec} (s : State) (h : ∀ p (r : PortRec), r.MeterSame (f p r)) :
    MeterSame s (s.mapPorts f) :=
  ⟨fun p => by rw [port_mapPorts]; exact h p _, rfl⟩

theorem meterSame_goPlain (p : Port) (g : GuardState) (c : StateCause) (s : State) :
    MeterSame s (goPlain p g c s) :=
  MeterSame.trans (meterSame_setPort (enter_meterSame _ _ _ _)) (meterSame_report _ _)

theorem meterSame_setMode (m : Mode) (c : ModeCause) (s : State) : MeterSame s (setMode m c s) :=
  (meterSame_set_control s { s.control with mode := m, hostLost := 0, hostLostDue := false } rfl).trans
    (meterSame_report _ _)

theorem meterSame_wake (k : WakeKind) (p : Port) (s : State) : MeterSame s (wake k p s) :=
  meterSame_ite (meterSame_setMode .managed (.wake k p) s)

theorem meterSame_clearOverrides (s : State) : MeterSame s (clearOverrides s) :=
  meterSame_mapPorts s fun _ _ => PortRec.MeterSame.derived ⟨rfl, rfl, rfl, rfl⟩

theorem meterSame_setOverride (p : Port) (o : Override) (s : State) : MeterSame s (setOverride p o s) :=
  meterSame_modPort (PortRec.MeterSame.derived ⟨rfl, rfl, rfl, rfl⟩)

/-! #### The interval -/

theorem meterSame_roundSteps (s : State) : MeterSame s (roundSteps s) := by
  have old (r : Round) (t : State) : MeterSame t (dealOld r t) :=
    .of_kept (kept_dealOld r t) (frame_dealOld r t) (by decide)
  unfold roundSteps
  dsimp only
  refine MeterSame.trans ?_ (.of_frame (frame_set_probe _ _) (by decide) (by decide))
  exact MeterSame.trans (.of_frame (frame_set_round s _ _) (by decide) (by decide)) (old _ _)

theorem meterSame_expireDue (s : State) : MeterSame s (expireDue s) :=
  .of_kept (kept_expireDue s) (frame_expireDue s) (by decide)

theorem meterSame_takeRound (s : State) : MeterSame s (takeRound s) :=
  meterSame_ite ((meterSame_roundSteps s).trans (.of_kept (kept_uplinkBook _) (frame_uplinkBook _) (by decide)))

theorem meterSame_portEnds (p : Port) (s : State) : MeterSame s (portEnds p s) :=
  .of_kept (kept_portEnds p s) (frame_portEnds p s) (by decide)

theorem meterSame_lowerPortsEnd (p : Port) (s : State) : MeterSame s (lowerPortsEnd p s) :=
  MeterSame.foldl (fun t q => meterSame_portEnds q t) _ s

theorem tickRec_meterSame (n : Nat) (r : PortRec) : r.MeterSame (tickRec n r) := by
  unfold tickRec
  split
  · split <;> exact ⟨rfl, rfl, rfl, rfl⟩
  · split <;> exact ⟨rfl, rfl, rfl, rfl⟩
  all_goals exact ⟨rfl, rfl, rfl, rfl⟩

theorem meterSame_meterInterval (s : State) : MeterSame s (meterInterval s) := by
  unfold meterInterval
  dsimp only
  refine MeterSame.trans ?_ (.of_frame (frame_set_meter _ _) (by decide) (by decide))
  exact meterSame_mapPorts s fun _ _ => ⟨rfl, rfl, rfl, rfl⟩

theorem meterSame_intervalTick (s : State) : MeterSame s (intervalTick s) := by
  have host (t : State) : MeterSame t (hostTick t) := meterSame_ite (meterSame_set_control t _ rfl)
  unfold intervalTick
  dsimp only
  refine MeterSame.trans ?_ (host _)
  refine MeterSame.trans ?_ (meterSame_mapPorts _ fun _ r => tickRec_meterSame _ r)
  refine MeterSame.trans ?_ (.of_frame (frame_readOpt _) (by decide) (by decide))
  refine MeterSame.trans ?_ (.of_frame (frame_paceTick _) (by decide) (by decide))
  refine MeterSame.trans ?_ (.of_frame (frame_handTx _ _) (by decide) (by decide))
  exact MeterSame.trans (.of_frame (frame_clockTick s) (by decide) (by decide)) (meterSame_meterInterval _)

/-! #### The Guard Link and the command channel -/

theorem meterSame_tripEvent (p : Port) (s : State) : MeterSame s (tripEvent p s) := by
  unfold tripEvent
  refine MeterSame.trans (meterSame_wake .trip p s) ?_
  refine MeterSame.trans (.of_kept (kept_readLet _) (frame_readLet _) (by decide)) ?_
  refine MeterSame.trans (.of_kept (kept_interlock p _) (frame_interlock p _) (by decide)) ?_
  refine MeterSame.trans ?_ (.of_kept (kept_settleSweep _) (frame_settleSweep _) (by decide))
  split
  · exact MeterSame.refl _
  · exact .of_kept (kept_tripPassed p _) (frame_tripPassed p _) (by decide)

theorem meterSame_catchFound (i : Fin 32) (y : Port) (s : State) : MeterSame s (catchFound i y s) := by
  unfold catchFound
  split
  · exact MeterSame.refl s
  · refine MeterSame.trans (meterSame_wake .caught y s) ?_
    dsimp only
    split
    · exact MeterSame.refl _
    · exact MeterSame.trans (.of_frame (frame_writeOpt _ _ _) (by decide) (by decide))
        (.of_kept (kept_sighting _ _ _) (frame_sighting _ _ _) (by decide))

theorem meterSame_catchAtProbe (y x : PortField) (r : Round) (d : Identity) (s : State) :
    MeterSame s (catchAtProbe y x r d s) := by
  have count (t : State) (u : ProbeUnit) : MeterSame t { t with probe := u } :=
    .of_frame (frame_set_probe t u) (by decide) (by decide)
  unfold catchAtProbe
  split
  · exact count s _
  · split
    · unfold catchOn
      split
      · refine MeterSame.trans (.of_frame (frame_readOpt s) (by decide) (by decide)) ?_
        dsimp only
        split
        · exact count _ _
        · exact meterSame_catchFound _ _ _
      · exact count s _
    · exact count s _

theorem meterSame_linkUpEvent (p : Port) (s : State) : MeterSame s (linkUpEvent p s) := by
  have raised : MeterSame s (linkRaised p s) := by
    unfold linkRaised
    rw [← wake_eq_woken]
    refine MeterSame.trans ?_ (.of_frame (frame_set_order _ _) (by decide) (by decide))
    refine (meterSame_wake .linkUp p s).trans (meterSame_modPort ⟨rfl, rfl, rfl, rfl⟩)
  rw [linkUpEvent_eq]
  exact raised.trans (meterSame_ite (meterSame_goPlain _ _ _ _))

theorem meterSame_linkFails (p : Port) (k : CommandKind) (s : State) : MeterSame s (linkFails p k s) := by
  unfold linkFails
  dsimp only
  refine MeterSame.trans ?_ (.of_frame (frame_set_fault _ _ _ _) (by decide) (by decide))
  refine MeterSame.trans ?_ (meterSame_mapPorts _ fun _ _ => ⟨rfl, rfl, rfl, rfl⟩)
  exact meterSame_report _ s

theorem meterSame_setportTimedOut (p q : Port) (s : State) : MeterSame s (setportTimedOut p q s) := by
  unfold setportTimedOut
  dsimp only
  refine MeterSame.trans ?_ (.of_frame (frame_set_arbiter _ _) (by decide) (by decide))
  exact meterSame_modPort ⟨rfl, rfl, rfl, rfl⟩

theorem meterSame_commandTimeout (o : Outstanding) (s : State) : MeterSame s (commandTimeout o s) := by
  have ended :
      MeterSame s (endCommand { s with glink := { s.glink with ackTimeouts := satInc s.glink.ackTimeouts } }) :=
    (meterSame_set_glink s _).trans (meterSame_set_glink _ _)
  unfold commandTimeout judgeLink
  refine MeterSame.trans ?_ (meterSame_ite (meterSame_linkFails _ _ _))
  refine MeterSame.trans ?_ (.of_frame (frame_countTimeout _) (by decide) (by decide))
  refine MeterSame.trans ended ?_
  split
  · exact meterSame_setportTimedOut _ _ _
  · exact .of_frame (frame_probeEnded _ _ _) (by decide) (by decide)

theorem meterSame_grantSetport (p : Port) (s : State) : MeterSame s (grantSetport p s) := by
  unfold grantSetport
  dsimp only
  refine MeterSame.trans ?_ (.of_frame (frame_handTx _ _) (by decide) (by decide))
  refine MeterSame.trans ?_ (.of_frame (frame_set_channel _ _ _) (by decide) (by decide))
  exact meterSame_modPort ⟨rfl, rfl, rfl, rfl⟩

theorem meterSame_sampleKey (level : Bool) (s : State) : MeterSame s (sampleKey level s) :=
  .of_frame (frame_sampleKey level s) (by decide) (by decide)

/-- The due judgements of the lower ports come before those of a port. -/
theorem meterSame_judged (p : Port) {s t : State} {l : List Part} (h : Kept (lowerPortsEnd p s) t)
    (f : OnlyChanges l (lowerPortsEnd p s) t) (control : Part.control ∉ l) : MeterSame s t :=
  (meterSame_lowerPortsEnd p s).trans (.of_kept h f control)

/-- A quiet command leaves the meter alone. -/
theorem exec_meterSame {c : Instr} (h : quiet c = true) {s t : State} (run : exec c s = .next t) : MeterSame s t := by
  cases c
  case startPacingAllowance =>
    cases run; exact meterSame_ite (.of_frame (frame_paceTick s) (by decide) (by decide))
  case roundStart => cases run; exact meterSame_ite ((meterSame_expireDue s).trans (meterSame_takeRound _))
  case probeExpiry =>
    cases run
    split
    · exact MeterSame.refl s
    · exact .of_kept (kept_expireSlot _ s) (frame_expireSlot _ s) (by decide)
  case throttleHoldExpiry p =>
    cases run
    exact meterSame_ite (meterSame_judged p (kept_throttleEnds p _) (frame_throttleEnds p _) (by decide))
  case holdExpiry p =>
    cases run
    exact meterSame_ite (meterSame_judged p (kept_holdEnds p _) (frame_holdEnds p _) (by decide))
  case strikeDecay p => cases run; exact .of_kept (kept_decayEnds p s) (frame_decayEnds p s) (by decide)
  case framingError bits => cases run; exact meterSame_ite (meterSame_set_glink s _)
  case unknownRecord w => cases run; exact meterSame_ite (meterSame_set_glink s _)
  case ackTimeout =>
    cases run
    split
    · exact meterSame_ite (meterSame_commandTimeout _ s)
    · exact MeterSame.refl s
  case setport =>
    cases run
    split
    · exact meterSame_grantSetport _ s
    · exact MeterSame.refl s
    · exact MeterSame.refl s
  case inject =>
    cases run
    split
    · exact .of_frame (frame_grantProbe _ s) (by decide) (by decide)
    · exact MeterSame.refl s
    · exact MeterSame.refl s
  case commandLastBit =>
    have sent : MeterSame s (commandSent s) := .of_frame (frame_commandSent s) (by decide) (by decide)
    cases run
    split
    · exact sent
    · exact sent
    · exact MeterSame.refl s
    · exact MeterSame.refl s
  case strobeLastBit =>
    cases run
    split
    · exact .of_frame (frame_strobeSent s) (by decide) (by decide)
    · exact MeterSame.refl s
    · exact MeterSame.refl s
    · exact MeterSame.refl s
  case gapTimeout =>
    cases run
    split
    · exact MeterSame.refl s
    · exact .of_frame (frame_frameTruncated s) (by decide) (by decide)
  case checkFail body check =>
    cases run; exact meterSame_ite (.of_frame (frame_frameCheckFails s) (by decide) (by decide))
  case rejectBusy kind fields =>
    cases run; exact meterSame_ite (.of_frame (frame_frameBusy kind s) (by decide) (by decide))
  case writeCompletion took => cases run; exact .of_frame (frame_writeEnds took s) (by decide) (by decide)
  case keyFall => cases run; exact .of_frame (frame_keyFalls s) (by decide) (by decide)
  all_goals cases h

end Sys2Proof.Machine
end

section
/-! SUPPORT. The requests that leave the meter and the policy alone, and the ranges of a policy: what the clamps of R161
settle. -/

namespace Sys2Proof.Machine

/-! ### Requests that leave the meter alone -/

/-- The requests that touch neither a port record nor the Mode Unit. -/
def RequestKind.sparing (k : RequestKind) : Bool :=
  match k with
  | .mode | .setp | .roles | .ovrd | .lesson => false
  | _ => true

/-- The parts that a sparing request may change. -/
def sparingParts : List Part := [.meter, .probe, .evidence, .trap, .glink, .mgmt, .reports, .settings]

theorem frame_doStat (fields : List Byte) (s : State) : OnlyChanges sparingParts s (doStat fields s).state := by
  unfold doStat
  split
  · exact OnlyChanges.refl _ s
  · split
    · exact OnlyChanges.refl _ s
    · split
      · exact (frame_clearCounts s).mono (by decide)
      · exact OnlyChanges.refl _ s
  · exact OnlyChanges.refl _ s

theorem frame_doStore (fields : List Byte) (s : State) : OnlyChanges sparingParts s (doStore fields s).state := by
  unfold doStore
  split
  · split
    · unfold storeArea
      split
      · exact OnlyChanges.refl _ s
      · split
        · exact OnlyChanges.refl _ s
        · exact (frame_startWrite _ s).mono (by decide)
    · exact OnlyChanges.refl _ s
  · exact OnlyChanges.refl _ s

theorem frame_doWatch (fields : List Byte) (s : State) : OnlyChanges sparingParts s (doWatch fields s).state := by
  unfold doWatch
  split
  · split
    · exact OnlyChanges.refl _ s
    · split
      · exact OnlyChanges.refl _ s
      · exact (frame_set_reports s _).mono (by decide)
  · exact OnlyChanges.refl _ s

theorem frame_doExtend (fields : List Byte) (s : State) : OnlyChanges sparingParts s (doExtend fields s).state := by
  unfold doExtend
  split
  · split
    · exact OnlyChanges.refl _ s
    · split
      · exact OnlyChanges.refl _ s
      · exact (frame_set_reports s _).mono (by decide)
  · exact OnlyChanges.refl _ s

theorem frame_doUnwatch (fields : List Byte) (s : State) :
    OnlyChanges sparingParts s (doUnwatch fields s).state := by
  unfold doUnwatch
  split
  · split
    · exact OnlyChanges.refl _ s
    · exact ((frame_report _ s).mono (by decide)).comp (frame_set_reports _ _) (by decide)
  · exact OnlyChanges.refl _ s

theorem frame_act {k : RequestKind} (h : k.sparing = true) (fields : List Byte) (s : State) :
    OnlyChanges sparingParts s (k.act fields s).state := by
  cases k with
  | stat => exact frame_doStat fields s
  | portq =>
    show OnlyChanges _ s (doPortq fields s).state
    unfold doPortq
    split
    · split <;> exact OnlyChanges.refl _ s
    · exact OnlyChanges.refl _ s
  | fetch =>
    show OnlyChanges _ s (doFetch fields s).state
    unfold doFetch
    split
    · exact (frame_fetchState _ s).mono (by decide)
    · exact OnlyChanges.refl _ s
  | ackgap =>
    show OnlyChanges _ s (doAckgap fields s).state
    unfold doAckgap
    split
    · exact (frame_acknowledge s).mono (by decide)
    · exact OnlyChanges.refl _ s
  | trapclr =>
    show OnlyChanges _ s (doTrapclr fields s).state
    unfold doTrapclr
    split
    · exact (frame_set_trap s none).mono (by decide)
    · exact OnlyChanges.refl _ s
  | store => exact frame_doStore fields s
  | watch => exact frame_doWatch fields s
  | extend => exact frame_doExtend fields s
  | unwatch => exact frame_doUnwatch fields s
  | reset =>
    show OnlyChanges _ s (doReset fields s).state
    unfold doReset
    split
    · exact (frame_set_mgmt s _).mono (by decide)
    · exact OnlyChanges.refl _ s
  | mode => cases h
  | setp => cases h
  | roles => cases h
  | ovrd => cases h
  | lesson => cases h

/-! ### The ranges of a policy -/

theorem clampTo_idem (lo hi v : Nat) : clampTo lo hi (clampTo lo hi v) = clampTo lo hi v := by
  unfold clampTo
  omega

theorem clampIVL_idem (v : Nat) : clampIVL (clampIVL v) = clampIVL v := by
  unfold clampIVL
  split
  · rfl
  · split
    · rfl
    · split <;> rfl

/-- Every value of a row lies in its own range. -/
def MeterRow.InRange (m : MeterRow) : Prop := m.ownRange = m

/-- Every value of a policy lies in its own range. -/
def Policy.InRange (q : Policy) : Prop := q.ownRange = q

theorem MeterRow.inRange_ownRange (m : MeterRow) : m.ownRange.InRange := by
  unfold MeterRow.InRange MeterRow.ownRange
  simp [clampTo_idem]

theorem Policy.inRange_ownRange (q : Policy) : q.ownRange.InRange := by
  have row (m : MeterRow) : m.ownRange.ownRange = m.ownRange := m.inRange_ownRange
  unfold Policy.InRange Policy.ownRange
  simp [clampTo_idem, clampIVL_idem, row]

/-- The cross clamp leaves every value of a row in its range: Ttrip is at least 2. -/
theorem MeterRow.InRange.crossClamp {m : MeterRow} (h : m.InRange) : m.crossClamp.InRange := by
  obtain ⟨a, bmax, r, ttrip, tclear, nthr⟩ := m
  unfold InRange ownRange MeterRow.crossClamp clampTo at *
  simp only [MeterRow.mk.injEq] at *
  omega

theorem MeterRow.crossClamp_idem (m : MeterRow) : m.crossClamp.crossClamp = m.crossClamp := by
  unfold crossClamp
  simp

/-- The cross clamp leaves every value of a policy in its range: tRND is at least 5. -/
theorem Policy.InRange.crossClamp {q : Policy} (h : q.InRange) : q.crossClamp.InRange := by
  have row {m : MeterRow} (e : m.ownRange = m) : m.crossClamp.ownRange = m.crossClamp :=
    MeterRow.InRange.crossClamp e
  obtain ⟨managed, tIVL, access, teacher, uplink, tRND, tEXP, nCONF, nLSN, tHOLD0, tDECAY, tHOST, qatt⟩ := q
  unfold InRange ownRange Policy.crossClamp at *
  simp only [Policy.mk.injEq, clampTo] at *
  obtain ⟨-, ivl, hA, hT, hU, rnd, exp, conf, lsn, hold, decay, host, att⟩ := h
  refine ⟨trivial, ivl, row hA, row hT, row hU, rnd, ?_, conf, lsn, hold, decay, host, att⟩
  omega

theorem Policy.crossClamp_idem (q : Policy) : q.crossClamp.crossClamp = q.crossClamp := by
  unfold crossClamp
  simp [MeterRow.crossClamp_idem]

/-- A policy is settled when it is in its ranges and the cross clamp changes nothing in it. -/
theorem Policy.InRange.settled {q : Policy} (h : q.InRange) : q.crossClamp.settle = q.crossClamp := by
  have own : q.crossClamp.ownRange = q.crossClamp := h.crossClamp
  rw [settle, own, crossClamp_idem]

theorem Policy.settle_settle (q : Policy) : q.settle.settle = q.settle := q.inRange_ownRange.settled

theorem Policy.inRange_of_settled {q : Policy} (h : q.settle = q) : q.InRange :=
  h ▸ q.inRange_ownRange.crossClamp

theorem SettingsStore.readPolicy_settled (u : SettingsStore) : u.readPolicy.settle = u.readPolicy := by
  unfold readPolicy
  split
  · exact Policy.settle_settle _
  · decide

/-- A row stays in its ranges when one value of it is replaced by a clamped one. -/
theorem MeterRow.InRange.put {m : MeterRow} (h : m.InRange) (role : Role) (f : RowField) (v : Nat) :
    (m.put f ((Param.row role f).clamp v)).InRange := by
  obtain ⟨a, bmax, r, ttrip, tclear, nthr⟩ := m
  unfold InRange ownRange at *
  cases f <;> simp_all [MeterRow.put, Param.clamp, clampTo_idem]

/-- So does a policy: step 1 of SETP (R161). -/
theorem Policy.InRange.put {q : Policy} (h : q.InRange) (p : Param) (v : Nat) : (q.put p (p.clamp v)).InRange := by
  obtain ⟨managed, tIVL, access, teacher, uplink, tRND, tEXP, nCONF, nLSN, tHOLD0, tDECAY, tHOST, qatt⟩ := q
  unfold InRange ownRange at *
  simp only [Policy.mk.injEq] at h
  obtain ⟨-, ivl, hA, hT, hU, rnd, exp, conf, lsn, hold, decay, host, att⟩ := h
  have row {m : MeterRow} (e : m.ownRange = m) (role : Role) (f : RowField) :
      (m.put f ((Param.row role f).clamp v)).ownRange = m.put f ((Param.row role f).clamp v) :=
    MeterRow.InRange.put e role f v
  cases p with
  | row role f =>
    cases role <;>
      simp [Policy.put, Policy.putRow, Policy.rowOf, ivl, hA, hT, hU, rnd, exp, conf, lsn, hold, decay, host, att, row]
  | _ =>
    simp [Policy.put, Param.clamp, clampTo_idem, clampIVL_idem, ivl, hA, hT, hU, rnd, exp, conf, lsn, hold, decay,
      host, att]

/-- The values SETP writes lie in their ranges and pass the cross clamp (R161). -/
theorem setp_settled {q : Policy} (h : q.settle = q) (pairs : List (Byte × Param × Nat)) :
    (setpOwn pairs q).crossClamp.settle = (setpOwn pairs q).crossClamp := by
  have own (l : List (Byte × Param × Nat)) : ∀ {t : Policy}, t.InRange → (setpOwn l t).InRange := by
    induction l with
    | nil => exact fun ht => ht
    | cons x l ih => exact fun ht => ih (ht.put _ _)
  exact (own pairs (Policy.inRange_of_settled h)).settled

end Sys2Proof.Machine
end

section
/-! SUPPORT. A property of the meter and the policy over every step, reduced to the events that change them. -/

namespace Sys2Proof.Machine

/-- A property of the meter and the policy that the events which change them keep: a reset and the end of the load, a
taken DIGEST, the meter's part of a link-down event, a role change, a new settled policy and a LESSON. -/
structure MeterInvariant (I : State → Prop) : Prop where
  same : ∀ {s t}, MeterSame s t → I s → I t
  reset : ∀ c baud s, I (resetTo c baud s)
  load : ∀ {s}, I s → I (loadDone s)
  digest : ∀ p n {s}, n < 65536 → (s.port p).role ≠ .unused → I s →
    I (s.setPort p (meterUpdate (s.rowAt p) n (s.port p)))
  linkDown : ∀ p {s}, I s → I (s.modPort p (meterReset (s.rowAt p).bmax))
  roles : ∀ table {s}, I s → I (roleChange table s)
  policy : ∀ q {s}, (PolicyFits s → q.settle = q) → I s → I (applyPolicy q s)
  lesson : ∀ {s}, I s → I (lessonRefill s)

theorem MeterSame.row {s t : State} (h : MeterSame s t) (p : Port) : t.rowAt p = s.rowAt p := by
  unfold State.rowAt
  rw [h.policy, (h.ports p).role]

section
variable {I : State → Prop} (h : MeterInvariant I)
include h

theorem MeterInvariant.frame {l : List Part} {s t : State} (f : OnlyChanges l s t) (ports : Part.ports ∉ l)
    (control : Part.control ∉ l) (hs : I s) : I t := h.same (.of_frame f ports control) hs

theorem MeterInvariant.enterAutonomous (c : ModeCause) {s : State} (hs : I s) : I (enterAutonomous c s) := by
  unfold Machine.enterAutonomous
  refine h.roles _ (h.policy _ (fun _ => SettingsStore.readPolicy_settled _) ?_)
  exact h.same ((meterSame_setMode _ c s).trans (meterSame_clearOverrides _)) hs

theorem MeterInvariant.hostLostEnds {s : State} (hs : I s) : I (hostLostEnds s) := by
  unfold Machine.hostLostEnds
  split
  · exact h.enterAutonomous _ hs
  · exact hs

theorem MeterInvariant.settleInterval {s : State} (hs : I s) : I (settleInterval s) := by
  have rounds : I (takeRound (expireDue s)) := h.same ((meterSame_expireDue s).trans (meterSame_takeRound _)) hs
  unfold Machine.settleInterval
  dsimp only
  generalize allPorts = l
  refine h.frame (frame_strobesSent _) (by decide) (by decide) (h.hostLostEnds ?_)
  exact h.same (MeterSame.foldl (fun u p => meterSame_portEnds p u) l _) rounds

theorem MeterInvariant.startDone {s : State} (hs : I s) : I (startDone s) := by
  have starts (t : State) (k : IntervalClock) :
      MeterSame t (roundSteps (handTx (.strobe 0) { t with clock := k })) :=
    (MeterSame.of_frame (frame_set_clock t k) (by decide) (by decide)).trans
      ((MeterSame.of_frame (frame_handTx _ _) (by decide) (by decide)).trans (meterSame_roundSteps _))
  unfold Machine.startDone
  refine h.same (starts _ _) ?_
  split
  · exact h.same (meterSame_setMode _ _ s) hs
  · exact h.enterAutonomous _ hs

/-! #### Inbound records -/

theorem MeterInvariant.linkDownTo (g : GuardState) (c : StateCause) (p : Port) {s : State} (hs : I s) :
    I (linkDownTo g c p s) := by
  have lowered : MeterSame s (linkLowered p s) :=
    MeterSame.trans (meterSame_modPort (f := fun r => { r with linkUp := false }) (p := p) ⟨rfl, rfl, rfl, rfl⟩)
      (.of_frame (frame_set_order _ _) (by decide) (by decide))
  have cleared (t : State) : MeterSame t (portCleared p t) := by
    unfold portCleared
    refine MeterSame.trans ?_ (.of_kept (kept_withdraw _ _) (frame_withdraw _ _) (by decide))
    refine MeterSame.trans ?_ (.of_frame (frame_dropProbe _ _) (by decide) (by decide))
    exact .of_frame (frame_removeProbes _ _) (by decide) (by decide)
  have down {t : State} (k : MeterSame s t) : I (t.modPort p (meterReset (s.rowAt p).bmax)) :=
    k.row p ▸ h.linkDown p (h.same k hs)
  rw [linkDownTo_eq]
  refine h.same (cleared _) (down ?_)
  split
  · exact lowered
  · exact lowered.trans (meterSame_goPlain _ _ _ _)

theorem MeterInvariant.absence (p : Port) {s : State} (hs : I s) : I (absence p s) := by
  have absented : MeterSame s (s.modPort p PortRec.absented) :=
    meterSame_modPort (PortRec.MeterSame.derived ⟨rfl, rfl, rfl, rfl⟩)
  have ha := h.same absented hs
  rw [absence_eq]
  split
  · exact h.linkDownTo _ _ p ha
  · split
    · exact ha
    · exact h.same (meterSame_goPlain _ _ _ _) ha

theorem MeterInvariant.linkReport (p : Port) (up : Bool) {s : State} (hs : I s) : I (linkReport p up s) := by
  unfold Machine.linkReport
  split
  · split
    · exact h.same (meterSame_linkUpEvent p s) hs
    · exact h.linkDownTo _ _ p hs
  · exact hs

theorem MeterInvariant.digestAtMeter (p : Port) (stamp : Byte) (f : BitVec 16) {s : State} (hs : I s) :
    I (digestAtMeter p stamp f.toNat s) := by
  have late : I (lateDigest s) := h.frame (frame_lateDigest s) (by decide) (by decide) hs
  unfold Machine.digestAtMeter
  split
  · exact hs
  · split
    · exact late
    · next metered =>
      split
      · exact late
      · split
        · exact late
        · have guarded : (s.port p).role ≠ .unused := by
            unfold PortRec.metered at metered
            simp only [Bool.not_eq_false, Bool.and_eq_true, decide_eq_true_eq] at metered
            exact metered.2
          have taken := h.digest p f.toNat f.isLt guarded hs
          unfold takeDigest
          refine h.frame (frame_watchDigest _ _ _) (by decide) (by decide) ?_
          split
          · exact h.same (meterSame_tripEvent p _) taken
          · split
            · exact h.same (.of_kept (kept_clearEvent p _) (frame_clearEvent p _) (by decide)) taken
            · exact taken

theorem MeterInvariant.sweepAnswered (p : Port) {s : State} (hs : I s) : I (sweepAnswered p s) := by
  have left : I (leaveSweep p s) := h.same (meterSame_set_control s _ rfl) hs
  unfold Machine.sweepAnswered
  split
  · split
    · exact h.startDone left
    · exact left
  · exact hs

theorem MeterInvariant.ackEnds (o : Outstanding) (ok up : Bool) {s : State} (hs : I s) : I (ackEnds o ok up s) := by
  unfold Machine.ackEnds
  split
  · refine h.sweepAnswered _ ?_
    split
    · exact h.linkReport _ _ (h.same (meterSame_modPort ⟨rfl, rfl, rfl, rfl⟩) hs)
    · exact h.absence _ hs
  · refine h.linkReport _ _ ?_
    split
    · exact h.frame (frame_probeAcked _ _ _) (by decide) (by decide) hs
    · exact h.frame (frame_probeEnded _ _ _) (by decide) (by decide) hs

theorem MeterInvariant.ackTaken (f : PortField) (ok up : Bool) {s : State} (hs : I s) : I (ackTaken f ok up s) := by
  have seen : I (ackSeen s) := h.frame (frame_ackSeen s) (by decide) (by decide) hs
  have stray : I (strayAck (ackSeen s)) := h.same (meterSame_set_glink _ _) seen
  unfold Machine.ackTaken
  split
  · exact stray
  · split
    · exact h.ackEnds _ _ _ (h.frame (frame_endCommand _) (by decide) (by decide) seen)
    · exact stray

theorem MeterInvariant.inbound (k : InboundKind) (f : PortField) {act : State → State} {s : State}
    (acts : ∀ t, I t → I (act t)) (hs : I s) : I (inbound k f act s) := by
  have done : I (recordDone s) := h.same (meterSame_set_glink s _) hs
  unfold Machine.inbound
  split
  · exact done
  · exact acts _ (h.frame (frame_linkReturns _ _ _) (by decide) (by decide) done)

/-- A record with a port field reaches its block, or is counted for its bad port. -/
theorem MeterInvariant.record (k : InboundKind) (f : PortField) {act : Port → State → State} {s : State}
    (acts : ∀ p t, I t → I (act p t)) (hs : I s) :
    I (Machine.inbound k f (fun t => match portOf f with | some p => act p t | none => badPort t) s) := by
  refine h.inbound k f (fun t ht => ?_) hs
  split
  · exact acts _ t ht
  · exact h.same (meterSame_set_glink t _) ht

/-! #### Requests -/

theorem MeterInvariant.takeFrame (body : List Byte) {s : State} (hs : I s) : I (takeFrame body s) := by
  have taken (t : State) (m : ManagementLine) :
      MeterSame t { t with mgmt := m, control := { t.control with hostLost := 0, hostLostDue := false } } :=
    (meterSame_set_mgmt t m).trans (meterSame_set_control _ _ rfl)
  exact h.same (taken _ _) (h.hostLostEnds hs)

theorem MeterInvariant.modeTo (m : Mode) {s : State} (hs : I s) : I (modeTo m s).state := by
  unfold Machine.modeTo
  split
  · exact hs
  · split
    · exact h.enterAutonomous _ hs
    · exact h.same (meterSame_setMode _ _ s) hs
    · split
      · exact h.same (meterSame_setMode _ _ s) hs
      · exact hs
    · exact hs

/-- What an owning block answers to a request that the mode serves. -/
theorem MeterInvariant.act (k : RequestKind) (fields : List Byte) {s : State} (hs : I s) :
    I (k.act fields s).state := by
  by_cases spares : k.sparing = true
  · exact h.frame (frame_act spares fields s) (by decide) (by decide) hs
  cases k
  case mode =>
    show I (doMode fields s).state
    unfold doMode
    split
    · split
      · exact h.modeTo _ hs
      · exact hs
    · exact hs
  case setp =>
    show I (doSetp fields s).state
    unfold doSetp
    split
    · exact h.policy _ (fun fits => setp_settled fits _) hs
    · exact hs
  case roles =>
    show I (doRoles fields s).state
    unfold doRoles
    split
    · exact hs
    · split
      · exact hs
      · split
        · unfold rolesCodes
          split
          · exact hs
          · exact h.roles _ hs
        · exact hs
  case ovrd =>
    show I (doOvrd fields s).state
    unfold doOvrd
    split
    · split
      · unfold ovrdPort
        split
        · exact hs
        · exact h.same (meterSame_setOverride _ _ s) hs
      · exact hs
    · exact hs
  case lesson =>
    show I (doLesson fields s).state
    unfold doLesson
    split
    · exact h.lesson hs
    · exact hs
  all_goals exact absurd rfl spares

theorem MeterInvariant.ifServed (k : RequestKind) (fields : List Byte) {s : State} (hs : I s) :
    I (ifServed k (k.act fields) s).state := by
  unfold Machine.ifServed
  split
  · exact h.act k fields hs
  · exact hs

theorem MeterInvariant.sendReply (kind : Byte) {a : Answer} (hs : I a.state) : I (sendReply kind a) :=
  h.same (meterSame_set_mgmt _ _) hs

/-- A request frame, carried out or refused as busy. -/
theorem MeterInvariant.request (kind : Byte) (fields : List Byte) {act : State → Answer} {s : State}
    (acts : ∀ t, I t → I (act t).state) (hs : I s) : I (request kind fields act s) := by
  unfold Machine.request
  split
  · split
    · exact h.sendReply _ (acts _ (h.takeFrame _ hs))
    · exact h.frame (frame_frameBusy _ s) (by decide) (by decide) hs
  · exact hs

theorem MeterInvariant.serve (body : List Byte) {s : State} (hs : I s) : I (serve body s) := by
  unfold Machine.serve
  split
  · exact hs
  · refine h.sendReply _ ?_
    unfold answerTo
    split
    · exact h.ifServed _ _ (h.takeFrame _ hs)
    · exact h.takeFrame _ hs

/-- A character, with the judgement of the frame it may complete. -/
theorem MeterInvariant.character (b : Byte) (stop : CharacterEnd) {s : State} (hs : I s) :
    I (judgeComplete (receiveChar b stop.framingFault (sampleKey stop.key s))) := by
  have received : I (receiveChar b stop.framingFault (sampleKey stop.key s)) :=
    h.frame (frame_receiveChar _ _ _) (by decide) (by decide) (h.same (meterSame_sampleKey _ s) hs)
  unfold judgeComplete
  split
  · exact received
  · have judged := h.same (meterSame_set_mgmt _ { (receiveChar b stop.framingFault (sampleKey stop.key s)).mgmt with
      complete := none }) received
    unfold judgeFrame
    split
    · exact h.frame (frame_frameCheckFails _) (by decide) (by decide) judged
    · split
      · exact h.serve _ judged
      · exact h.frame (frame_frameBusy _ _) (by decide) (by decide) judged

/-! #### Commands -/

theorem MeterInvariant.keyRead (c : Instr) {s : State} (hs : I s) : I (keyRead c s) := by
  unfold Machine.keyRead
  split
  · exact h.same (meterSame_sampleKey _ s) hs
  · exact h.same (meterSame_sampleKey _ s) hs
  · exact h.same (meterSame_sampleKey _ s) hs
  · exact hs

/-- Every command keeps a property of the meter and the policy. -/
theorem MeterInvariant.exec {c : Instr} {s t : State} (hs : I s) (run : Machine.exec c s = .next t) : I t := by
  by_cases still : quiet c = true
  · exact h.same (exec_meterSame still run) hs
  rcases requested : requestOf c with _ | ⟨kind, fields⟩
  case some =>
    obtain ⟨k, e⟩ := exec_request requested s
    rw [e] at run
    cases run
    exact h.request _ _ (fun t ht => h.ifServed k fields ht) (h.keyRead c hs)
  case none =>
  cases c
  case powerReset baud => cases run; exact h.reset _ _ _
  case pinReset baud => cases run; exact h.reset _ _ _
  case settingsStoreLoad =>
    cases run
    split
    · exact h.load hs
    · exact hs
  case intervalEvent =>
    cases run
    split
    · exact hs
    · exact h.same (meterSame_intervalTick _) (h.settleInterval hs)
  case hostLost => cases run; exact h.hostLostEnds hs
  case digest f stamp n =>
    cases run
    exact h.record .digest f (fun p t ht => h.digestAtMeter p stamp n ht) hs
  case catchRecord y x r d =>
    cases run
    exact h.inbound _ _ (fun t ht => h.same (meterSame_catchAtProbe y x r d t) ht) hs
  case link f up =>
    cases run
    exact h.record .link f (fun p t ht => h.linkReport p up ht) hs
  case ack f ok up =>
    cases run
    exact h.inbound _ _ (fun t ht => h.ackTaken f ok up ht) hs
  case character b stop => cases run; exact h.character b stop hs
  case replyEnd baud =>
    cases run
    split
    · split
      · exact h.reset _ _ _
      · exact h.frame (frame_replyEnds s) (by decide) (by decide) hs
    · exact hs
  case unknown kind fields =>
    cases run
    split
    · exact hs
    · exact h.request _ _ (fun t ht => ht) hs
  all_goals cases requested <;> exact absurd rfl still

theorem MeterInvariant.step {s t : State} (hs : I s) (run : Machine.step s = .next t) : I t := by
  unfold Machine.step at run
  split at run
  · cases run; exact hs
  · next rest _ => exact h.exec (h.frame (frame_set_pending s rest) (by decide) (by decide) hs) run

end

end Sys2Proof.Machine
end

section
/-! SUPPORT. The meter stays in its bounds (R15), and the policy in its ranges (R16, R161, R176), over every step. -/

namespace Sys2Proof.Machine

/-! ### What a role change makes of average and trip flag -/

/-- Average and trip flag are kept or cleared. -/
structure PortRec.Quieted (r u : PortRec) : Prop where
  average : u.avgE = r.avgE ∨ u.avgE = 0
  trip : u.trip = r.trip ∨ u.trip = false

theorem PortRec.Quieted.refl (r : PortRec) : r.Quieted r := ⟨Or.inl rfl, Or.inl rfl⟩

theorem PortRec.Quieted.trans {a b c : PortRec} (h : a.Quieted b) (k : b.Quieted c) : a.Quieted c :=
  ⟨k.average.elim (fun e => h.average.imp e.trans e.trans) Or.inr,
    k.trip.elim (fun e => h.trip.imp e.trans e.trans) Or.inr⟩

theorem PortRec.RoleSame.quieted {r u : PortRec} (h : r.RoleSame u) : r.Quieted u :=
  ⟨Or.inl h.meter.2.1, Or.inl h.meter.2.2⟩

/-- A record without average and trip flag gets neither from an event that only quiets it. -/
theorem PortRec.Quieted.silent {r u : PortRec} (h : r.Quieted u) (silent : r.avgE = 0 ∧ r.trip = false) :
    u.avgE = 0 ∧ u.trip = false :=
  ⟨h.average.elim (fun e => e.trans silent.1) id, h.trip.elim (fun e => e.trans silent.2) id⟩

theorem reseated_quieted (q : Policy) (old new : Role) (r : PortRec) : r.Quieted (r.reseated q old new) := by
  have derived := PortRec.MeterSame.derived (r := r) (u := { r with override := .noOverride }) ⟨rfl, rfl, rfl, rfl⟩
  unfold PortRec.reseated meterRole
  dsimp only
  split
  · exact ⟨Or.inr rfl, Or.inr rfl⟩
  · split
    · exact ⟨Or.inr rfl, Or.inr rfl⟩
    · exact ⟨Or.inl derived.average, Or.inl derived.trip⟩

theorem reseated_unused (q : Policy) (old : Role) (r : PortRec) :
    (r.reseated q old .unused).avgE = 0 ∧ (r.reseated q old .unused).trip = false := ⟨rfl, rfl⟩

theorem roleStep2_quieted (old new : Role) (p q : Port) (s : State) :
    (s.port q).Quieted ((roleStep2 old new p s).port q) := by
  have withdrawn := ((goneAtMost_withdraw (involves p) s).role q).2.quieted
  rw [roleStep2_port]
  split
  · next e =>
    subst e
    exact withdrawn.trans (reseated_quieted _ _ _ _)
  · exact withdrawn

theorem seatAll_quieted (old table : Port → Role) (l : List Port) (q : Port) (s : State) :
    (s.port q).Quieted ((seatAll old table l s).port q) := by
  induction l generalizing s with
  | nil => exact PortRec.Quieted.refl _
  | cons p l ih => exact (roleStep2_quieted (old p) (table p) p q s).trans (ih _)

/-- A port that becomes UNUSED has average 0 and no trip flag. -/
theorem seatAll_unused {old table : Port → Role} {l : List Port} {q : Port} (mem : q ∈ l)
    (unused : table q = .unused) (s : State) :
    ((seatAll old table l s).port q).avgE = 0 ∧ ((seatAll old table l s).port q).trip = false := by
  induction l generalizing s with
  | nil => cases mem
  | cons p l ih =>
    rcases List.mem_cons.mp mem with rfl | mem
    · refine (seatAll_quieted old table l q (roleStep2 (old q) (table q) q s)).silent ?_
      rw [roleStep2_port, if_pos rfl, unused]
      exact reseated_unused _ _ _
    · exact ih mem _

theorem roleChange_quieted (table : Port → Role) (s : State) (p : Port) :
    (s.port p).Quieted ((roleChange table s).port p) := by
  have ruled : (s.port p).Quieted ((afterRules table s).port p) := by
    by_cases h : Changed table s p
    · obtain ⟨-, average, trip⟩ := (ruled_fields (table p) (s.port p)).2.meter
      rw [afterRules_changed h]
      exact ⟨Or.inl average, Or.inl trip⟩
    · rw [afterRules_unchanged h]
      exact PortRec.Quieted.refl _
  rw [roleChange_eq]
  exact ruled.trans (seatAll_quieted _ _ _ _ _)

/-! ### The meter's bounds -/

theorem creditStep_le {m : MeterRow} {b : Nat} (f : Nat) (h : b ≤ m.bmax) : (creditStep m b f).1 ≤ m.bmax := by
  unfold creditStep
  split
  · split
    · exact (Nat.sub_le b _).trans h
    · exact Nat.zero_le _
  · exact Nat.min_le_left _ _

theorem creditStep_excess (m : MeterRow) (b f : Nat) : (creditStep m b f).2 = f - m.a - b := by
  unfold creditStep
  split
  · split
    · next covered => exact (Nat.sub_eq_zero_of_le covered).symm
    · rfl
  · next le => rw [Nat.sub_eq_zero_of_le (not_lt.mp le), Nat.zero_sub]

/-- The average cannot leave 256 × 65535 with counts of 16 bits. -/
theorem averageStep_le {e x : Nat} (he : e ≤ 16776960) (hx : x < 65536) : averageStep e x ≤ 16776960 := by
  unfold averageStep
  omega

theorem meterFits_same {s t : State} (k : MeterSame s t) (h : MeterFits s) : MeterFits t where
  average p := by rw [(k.ports p).average]; exact h.average p
  credit p := by rw [(k.ports p).credit, (k.ports p).role, k.policy]; exact h.credit p
  unused p := by rw [(k.ports p).role, (k.ports p).average, (k.ports p).trip]; exact h.unused p

/-- The bounds of one record under a policy. -/
structure PortRec.Bounded (q : Policy) (r : PortRec) : Prop where
  average : r.avgE ≤ 16776960
  credit : r.creditB ≤ (q.rowOf r.role).bmax
  unused : r.role = .unused → r.avgE = 0 ∧ r.trip = false

theorem meterFits_iff (s : State) : MeterFits s ↔ ∀ p, (s.port p).Bounded s.control.policy :=
  ⟨fun h p => ⟨h.average p, h.credit p, h.unused p⟩,
    fun h => ⟨fun p => (h p).average, fun p => (h p).credit, fun p => (h p).unused⟩⟩

theorem startRecord_bounded (q : Policy) (role : Role) : (startRecord q role).Bounded q :=
  ⟨Nat.zero_le _, le_refl _, fun _ => ⟨rfl, rfl⟩⟩

theorem meterUpdate_bounded {q : Policy} {r : PortRec} {n : Nat} (hn : n < 65536) (guarded : r.role ≠ .unused)
    (h : r.Bounded q) : (meterUpdate (q.rowOf r.role) n r).Bounded q where
  average := averageStep_le h.average (by rw [creditStep_excess]; omega)
  credit := creditStep_le n h.credit
  unused unused := absurd unused guarded

theorem meterReset_bounded {q : Policy} {r : PortRec} : (meterReset (q.rowOf r.role).bmax r).Bounded q :=
  ⟨Nat.zero_le _, le_refl _, fun _ => ⟨rfl, rfl⟩⟩

theorem clampRec_bounded {old : Policy} (new : Policy) {r : PortRec} (h : r.Bounded old) :
    (clampRec old new r).Bounded new where
  average := h.average
  credit := by
    show (if _ then _ else _) ≤ (new.rowOf r.role).bmax
    split
    · exact Nat.min_le_right _ _
    · next raised => exact h.credit.trans (not_lt.mp raised)
  unused := h.unused

theorem roleCredit_le (q : Policy) (old new : Role) (credit : Nat) :
    roleCredit q old new credit ≤ (q.rowOf new).bmax := by
  unfold roleCredit
  split
  · exact le_refl _
  · exact Nat.min_le_right _ _

theorem roleChange_bounded (table : Port → Role) {s : State} {p : Port} (h : (s.port p).Bounded s.control.policy) :
    ((roleChange table s).port p).Bounded s.control.policy := by
  have quieted := roleChange_quieted table s p
  have role := (roleChange_all table s p).1
  refine ⟨?_, ?_, fun unused => ?_⟩
  · rcases quieted.average with e | e <;> rw [e]
    · exact h.average
    · exact Nat.zero_le _
  · by_cases changed : Changed table s p
    · rw [(roleChange_changed changed).2, role]
      exact roleCredit_le _ _ _ _
    · obtain ⟨role', -, credit, -⟩ := roleChange_unchanged changed
      rw [credit, role']
      exact h.credit
  · by_cases changed : Changed table s p
    · rw [roleChange_eq]
      exact seatAll_unused (mem_changedList.mpr changed) (role.symm.trans unused) _
    · rw [(roleChange_unchanged changed).role] at unused
      exact quieted.silent (h.unused unused)

theorem applyPolicy_port (q : Policy) (s : State) (p : Port) :
    (applyPolicy q s).port p = clampRec s.control.policy q (s.port p) := by
  have ports : (applyPolicy q s).ports = (s.mapPorts fun _ r => clampRec s.control.policy q r).ports := rfl
  rw [port_congr ports, port_mapPorts]

theorem applyPolicy_control (q : Policy) (s : State) :
    (applyPolicy q s).control = { s.control with policy := q } := rfl

theorem lessonRefill_port (s : State) (p : Port) :
    (lessonRefill s).port p =
      if (s.port p).role = .unused then s.port p
      else { s.port p with creditB := (s.control.policy.rowOf (s.port p).role).bmax } := port_mapPorts _ _ _

theorem lessonRefill_bounded {q : Policy} {r : PortRec} (h : r.Bounded q) :
    (if r.role = .unused then r else { r with creditB := (q.rowOf r.role).bmax }).Bounded q := by
  split
  · exact h
  · exact ⟨h.average, le_refl _, h.unused⟩

theorem meterInvariant_meterFits : MeterInvariant MeterFits where
  same := meterFits_same
  reset c baud s := (meterFits_iff _).mpr fun p => by
    rw [resetTo_port]
    exact startRecord_bounded factoryPolicy _
  load _ := (meterFits_iff _).mpr fun p => by rw [loadDone_port]; exact startRecord_bounded _ _
  digest p n s hn guarded h := (meterFits_iff _).mpr fun q => by
    rw [meterFits_iff] at h
    rw [port_setPort, setPort_control]
    split
    · exact meterUpdate_bounded hn guarded (h p)
    · exact h q
  linkDown p s h := (meterFits_iff _).mpr fun q => by
    rw [meterFits_iff] at h
    rw [port_modPort, modPort_control]
    split
    · exact meterReset_bounded
    · exact h q
  roles table s h := (meterFits_iff _).mpr fun p => by
    rw [meterFits_iff] at h
    rw [show (roleChange table s).control = s.control from frame_roleChange table s .control (by decide)]
    exact roleChange_bounded table (h p)
  policy q s _ h := (meterFits_iff _).mpr fun p => by
    rw [meterFits_iff] at h
    rw [applyPolicy_port, applyPolicy_control]
    exact clampRec_bounded q (h p)
  lesson {s} h := (meterFits_iff _).mpr fun p => by
    rw [meterFits_iff] at h
    rw [lessonRefill_port]
    exact lessonRefill_bounded (h p)

/-- Settles O57: average and credit keep their bounds at every event that changes them. -/
theorem meterStaysInBounds : Obligations.MeterStaysInBounds :=
  fun _ _ h run => meterInvariant_meterFits.step h run

/-! ### The policy's ranges -/

theorem PolicyFits.congr {s t : State} (same : t.control = s.control) (h : PolicyFits s) : PolicyFits t := by
  unfold PolicyFits at *
  rw [same, h]

theorem meterInvariant_policyFits : MeterInvariant PolicyFits where
  same k h := by
    unfold PolicyFits at *
    rw [k.policy, h]
  reset c baud s := policyFits_reset
  load _ := SettingsStore.readPolicy_settled _
  digest p n s _ _ h := h.congr (setPort_control ..)
  linkDown p s h := h.congr (modPort_control ..)
  roles table s h := h.congr (frame_roleChange table s .control (by decide))
  policy q s settled h := settled h
  lesson h := h.congr (mapPorts_control ..)

/-- Settles O55: every new policy is clamped and cross-clamped before it is applied. -/
theorem policyStaysInRange : Obligations.PolicyStaysInRange :=
  fun _ _ h run => meterInvariant_policyFits.step h run

end Sys2Proof.Machine
end

section
/-! SUPPORT. What a DIGEST does at the meter (R22, R27 to R31): which one is taken, the update of the record, and what
the trip and clear events that follow leave of it. -/

namespace Sys2Proof.Machine

/-! ### The way of a DIGEST to the meter -/

theorem exec_digest_port (p : Port) (stamp : Byte) (f : BitVec 16) (s : State) :
    exec (.digest (portField p) stamp f) s =
      .next (inbound .digest (portField p) (digestAtMeter p stamp f.toNat) s) := by
  show execDigest _ _ _ s = _
  simp only [execDigest, portOf_portField]

theorem exec_digest_up {s : State} (p : Port) (stamp : Byte) (f : BitVec 16) (loaded : s.control.loading = false)
    (up : s.glink.state = .up) :
    exec (.digest (portField p) stamp f) s = .next (digestAtMeter p stamp f.toNat s.received) := by
  rw [exec_digest_port, inbound_up _ _ _ loaded up]

theorem metered_iff (r : PortRec) : r.metered = true ↔ r.present = true ∧ r.linkUp = true ∧ r.role ≠ .unused := by
  simp [PortRec.metered, and_assoc]

theorem digestAtMeter_none {p : Port} {stamp : Byte} {n : Nat} {s : State} (h : s.meter.takingStamp = none) :
    digestAtMeter p stamp n s = s := by
  unfold digestAtMeter
  rw [h]

/-- A DIGEST that fails one of R22's checks is counted (R22, R25). -/
theorem digestAtMeter_late {p : Port} {stamp k : Byte} {n : Nat} {s : State} (current : s.meter.takingStamp = some k)
    (fails : (s.port p).metered = false ∨ stamp ≠ k ∨ (s.port p).mark = .taken) :
    digestAtMeter p stamp n s = lateDigest s := by
  unfold digestAtMeter
  simp only [current]
  split
  · rfl
  · next metered =>
    split
    · rfl
    · next same =>
      rw [if_pos]
      rcases fails with h | h | h
      · exact absurd h metered
      · exact absurd h same
      · exact h

/-- A DIGEST that passes all of them is taken (R22). -/
theorem digestAtMeter_taken {p : Port} {stamp : Byte} {n : Nat} {s : State}
    (current : s.meter.takingStamp = some stamp) (metered : (s.port p).metered = true)
    (fresh : (s.port p).mark ≠ .taken) : digestAtMeter p stamp n s = takeDigest p n s := by
  unfold digestAtMeter
  simp only [current]
  rw [if_neg (by rw [metered]; decide), if_neg (fun h => h rfl), if_neg fresh]

theorem received_port (s : State) (p : Port) : s.received.port p = s.port p := port_congr rfl p

/-- Settles O15: of R22's checks the first that fails counts the DIGEST; with no taking stamp nothing happens. -/
theorem untakenDigestIsCounted : Obligations.UntakenDigestIsCounted := by
  intro s p stamp f loaded up
  rw [exec_digest_up p stamp f loaded up]
  refine ⟨fun none => ?_, fun k current fails => ?_⟩
  · rw [digestAtMeter_none (s := s.received) none]
  · rw [digestAtMeter_late (s := s.received) current (by rw [received_port]; exact fails)]
    rfl

/-! ### The update of a record -/

theorem meterUpdate_credit (m : MeterRow) (n : Nat) (r : PortRec) :
    (meterUpdate m n r).creditB = if m.a < n then r.creditB - (n - m.a) else min m.bmax (r.creditB + m.r) := by
  show (creditStep m r.creditB n).1 = _
  unfold creditStep
  split
  · split
    · rfl
    · next uncovered => exact (Nat.sub_eq_zero_of_le (Nat.le_of_lt (not_le.mp uncovered))).symm
  · rfl

theorem meterUpdate_average (m : MeterRow) (n : Nat) (r : PortRec) :
    (meterUpdate m n r).avgE = (7 * r.avgE + 256 * (n - m.a - r.creditB)) / 8 := by
  show averageStep r.avgE (creditStep m r.creditB n).2 = _
  rw [creditStep_excess, averageStep]

theorem meterUpdate_trip (m : MeterRow) (n : Nat) (r : PortRec) :
    (meterUpdate m n r).trip = true ↔
      if r.trip then 256 * m.tclear ≤ (meterUpdate m n r).avgE else 256 * m.ttrip ≤ (meterUpdate m n r).avgE := by
  show tripStep m r.trip (meterUpdate m n r).avgE = true ↔ _
  unfold tripStep
  split <;> simp

/-- The state once the meter has updated the record of a port. -/
def updated (p : Port) (n : Nat) (s : State) : State := s.setPort p (meterUpdate (s.rowAt p) n (s.port p))

theorem updated_port (p q : Port) (n : Nat) (s : State) :
    (updated p n s).port q = if q = p then meterUpdate (s.rowAt p) n (s.port p) else s.port q := port_setPort ..

/-- What follows the update: a trip event, a clear event, or neither; and then the watch (R30, R31). -/
theorem takeDigest_tripped {p : Port} {n : Nat} {s : State} (before : (s.port p).trip = false)
    (after : (meterUpdate (s.rowAt p) n (s.port p)).trip = true) :
    takeDigest p n s =
      watchDigest p (meterUpdate (s.rowAt p) n (s.port p)) (tripEvent p (updated p n s)) := by
  unfold takeDigest updated
  simp only [before, after, Bool.not_false, Bool.and_self, if_true]

theorem takeDigest_cleared {p : Port} {n : Nat} {s : State} (before : (s.port p).trip = true)
    (after : (meterUpdate (s.rowAt p) n (s.port p)).trip = false) :
    takeDigest p n s =
      watchDigest p (meterUpdate (s.rowAt p) n (s.port p)) (clearEvent p (updated p n s)) := by
  unfold takeDigest updated
  simp only [before, after, Bool.not_true, Bool.and_self, Bool.false_eq_true, if_false, Bool.not_false, if_true]

theorem takeDigest_steady {p : Port} {n : Nat} {s : State}
    (same : (meterUpdate (s.rowAt p) n (s.port p)).trip = (s.port p).trip) :
    takeDigest p n s = watchDigest p (meterUpdate (s.rowAt p) n (s.port p)) (updated p n s) := by
  unfold takeDigest updated
  simp only [same, Bool.and_not_self, Bool.false_eq_true, if_false]

/-- What follows the update leaves the updated record its meter fields. -/
theorem takeDigest_kept (p : Port) (n : Nat) (s : State) : Kept (updated p n s) (takeDigest p n s) := by
  have watched (r : PortRec) (t : State) : Kept t (watchDigest p r t) :=
    Kept.of_part (frame_watchDigest p r t) (by decide)
  cases before : (s.port p).trip <;> cases after : (meterUpdate (s.rowAt p) n (s.port p)).trip
  case false.true => rw [takeDigest_tripped before after]; exact (kept_tripEvent p _).trans (watched _ _)
  case true.false => rw [takeDigest_cleared before after]; exact (kept_clearEvent p _).trans (watched _ _)
  all_goals
    rw [takeDigest_steady (after.trans before.symm)]
    exact watched _ _

/-! ### A taken DIGEST -/

theorem linkReturns_up (f : PortField) (k : InboundKind) (s : State) : (linkReturns f k s).glink.state = .up := by
  unfold linkReturns
  split
  · rfl
  · next up =>
    cases h : s.glink.state
    · rfl
    · exact absurd h up

/-- Settles O14: the fields of the meter record after the update pass through the trip or clear event unchanged. -/
theorem takenDigestUpdatesTheMeter : Obligations.TakenDigestUpdatesTheMeter := by
  intro s p stamp f loaded current present up guarded fresh m x e
  let t := linkReturns (portField p) .digest (recordDone s)
  have returned : OnlyChanges [.glink, .arbiter, .reports] s t :=
    ((frame_set_glink s _).mono (by decide)).comp (frame_linkReturns _ _ _) (by decide)
  have port (q : Port) : t.port q = s.port q := port_congr (returned .ports (by decide)) q
  have row : t.rowAt p = m := by
    unfold State.rowAt
    rw [port, show t.control = s.control from returned .control (by decide)]
  have run : exec (.digest (portField p) stamp f) s = .next (takeDigest p f.toNat t) := by
    rw [exec_digest_port, inbound, if_neg (by rw [loaded]; decide), digestAtMeter_taken]
    · rw [show t.meter = s.meter from returned .meter (by decide)]; exact current
    · rw [port, metered_iff]; exact ⟨present, up, guarded⟩
    · rw [port]; exact fresh
  have kept := takeDigest_kept p f.toNat t
  have self : (updated p f.toNat t).port p = meterUpdate m f.toNat (s.port p) := by
    rw [updated_port, if_pos rfl, row, port]
  have average : ((takeDigest p f.toNat t).port p).avgE = e := by
    rw [(kept p).avgE, self, meterUpdate_average]
  refine ⟨_, run, (returned.mono (by decide)).comp (frame_takeDigest p _ t) (by decide), ?_, ?_, average, ?_, ?_, ?_,
    fun q hq => ?_⟩
  · rw [(kept p).lastF, self]; rfl
  · rw [(kept p).mark, self]; rfl
  · rw [(kept p).creditB, self, meterUpdate_credit]
  · rw [(kept p).trip, self, meterUpdate_trip, meterUpdate_average]
  · rw [show (takeDigest p f.toNat t).glink = t.glink from frame_takeDigest p _ t .glink (by decide)]
    exact linkReturns_up _ _ _
  · have other : (updated p f.toNat t).port q = s.port q := by rw [updated_port, if_neg hq, port]
    have k := other ▸ kept q
    exact ⟨k.lastF, k.avgE, k.creditB, k.trip, k.mark⟩

end Sys2Proof.Machine
end

section
/-! SUPPORT. The storm interlock (R64): which entries it confirms and which ports it blocks. -/

namespace Sys2Proof.Machine

/-! ### A block -/

/-- The record of a port that a confirm event has blocked (R90, R95). -/
def PortRec.struck (tHOLD0 : Nat) (r : PortRec) : PortRec :=
  ({ r with strike := strikeUp r.strike } : PortRec).enter .blocked 0 (holdFor tHOLD0 (strikeUp r.strike))

theorem struck_guard (n : Nat) (r : PortRec) : (r.struck n).guard = .blocked := (enter_spec ..).1

theorem struck_counts (n : Nat) (r : PortRec) :
    (r.struck n).strike = strikeUp r.strike ∧ (r.struck n).hold = holdFor n (strikeUp r.strike) := by
  obtain ⟨-, -, -, hold, -, strike, -⟩ :=
    enter_spec ({ r with strike := strikeUp r.strike } : PortRec) .blocked 0 (holdFor n (strikeUp r.strike))
  exact ⟨strike, hold⟩

theorem struck_not_blockable (n : Nat) (r : PortRec) : (r.struck n).guard.blockable = false := by
  rw [struck_guard]; rfl

theorem confirmEvent_port (p q : Port) (s : State) :
    (confirmEvent p s).port q =
      if q = p ∧ (s.port p).guard.blockable = true then (s.port p).struck s.control.policy.tHOLD0 else s.port q := by
  unfold confirmEvent
  by_cases blockable : (s.port p).guard.blockable = true
  · rw [if_pos blockable, goBlocked, moveGuard_port, port_modPort_self, port_modPort]
    simp only [blockable, and_true]
    split <;> rfl
  · rw [if_neg blockable, if_neg fun h => blockable h.2]

theorem confirmEffects_port (e : LetEntry) (first : Bool) (q : Port) (s : State) :
    (confirmEffects e first s).port q =
      if e.victim = some q ∧ (s.port q).guard.blockable = true then (s.port q).struck s.control.policy.tHOLD0
      else s.port q := by
  unfold confirmEffects
  cases e.victim with
  | none =>
    simp only [reduceCtorEq, false_and, if_false]
    split
    · exact port_report _ _ _
    · rfl
  | some v =>
    have event : (confirmEvent v s).port q =
        if some v = some q ∧ (s.port q).guard.blockable = true then (s.port q).struck s.control.policy.tHOLD0
        else s.port q := by
      rw [confirmEvent_port]
      by_cases same : q = v
      · subst same; simp only [true_and]
      · rw [if_neg fun h => same h.1, if_neg fun h => same (Option.some.inj h.1).symm]
    dsimp only
    split
    · rw [port_report]; exact event
    · exact event

/-! ### One slot -/

/-- An entry after its confirmation (R63, R64). -/
def LetEntry.confirmedBy (nCONF : Nat) (e : LetEntry) : LetEntry :=
  { e with count := max e.count nCONF, confirmed := true, parityOk := true }

/-- A port is egress or ingress of an entry. -/
def LetEntry.Has (p : Port) (e : LetEntry) : Prop := e.egress = p ∨ e.ingress = p

/-- A slot of the listed ones holds an entry of the port `p` that names `q` victim. -/
def Blamed (p : Port) (l : List (Fin 16)) (q : Port) (s : State) : Prop :=
  ∃ i ∈ l, ∃ e, s.evidence.slots.get i = some e ∧ e.Has p ∧ e.victim = some q

/-- What the interlock of the port `p` over the listed slots makes of the LET and the ports. -/
structure Interlocked (p : Port) (l : List (Fin 16)) (s t : State) : Prop where
  owed : t.evidence.sweepOwed = s.evidence.sweepOwed
  empty : ∀ i, s.evidence.slots.get i = none → t.evidence.slots.get i = none
  kept : ∀ i e, s.evidence.slots.get i = some e → i ∉ l ∨ ¬ e.Has p → t.evidence.slots.get i = some e
  confirmed : ∀ i e, s.evidence.slots.get i = some e → i ∈ l → e.Has p →
    t.evidence.slots.get i = some (e.confirmedBy s.control.policy.nCONF)
  struck : ∀ q, Blamed p l q s → (s.port q).guard.blockable = true →
    t.port q = (s.port q).struck s.control.policy.tHOLD0
  stays : ∀ q, ¬ Blamed p l q s ∨ (s.port q).guard.blockable = false → t.port q = s.port q

theorem blamed_single {p q : Port} {i : Fin 16} {s : State} :
    Blamed p [i] q s ↔ ∃ e, s.evidence.slots.get i = some e ∧ e.Has p ∧ e.victim = some q := by
  simp [Blamed]

theorem interlockSlot_spec (p : Port) (i : Fin 16) (s : State) : Interlocked p [i] s (interlockSlot p i s) := by
  have still (none : ∀ e, s.evidence.slots.get i = some e → ¬ e.Has p) : Interlocked p [i] s s :=
    { owed := rfl
      empty := fun _ h => h
      kept := fun _ _ h _ => h
      confirmed := fun j e h mem has => absurd has (none e (List.mem_singleton.mp mem ▸ h))
      struck := fun q blamed _ => by
        obtain ⟨e, h, has, -⟩ := blamed_single.mp blamed
        exact absurd has (none e h)
      stays := fun _ _ => rfl }
  unfold interlockSlot
  split
  · next free => exact still fun e h => by rw [free] at h; cases h
  · next e occupied =>
    split
    · next has =>
      let e' : LetEntry := { e with count := max e.count s.control.policy.nCONF, confirmed := true }
      have run : confirmSlot i s = confirmEffects e' (!e.confirmed) (writeLet i e' s) := by
        unfold confirmSlot; rw [occupied]
      have evidence : (confirmSlot i s).evidence = (writeLet i e' s).evidence := by
        rw [run]; exact frame_confirmEffects _ _ _ .evidence (by decide)
      have slot (j : Fin 16) : (confirmSlot i s).evidence.slots.get j =
          if j = i then some (e.confirmedBy s.control.policy.nCONF) else s.evidence.slots.get j := by
        rw [evidence]; exact get_set _ _ _ _
      have port (q : Port) : (confirmSlot i s).port q =
          if e.victim = some q ∧ (s.port q).guard.blockable = true then (s.port q).struck s.control.policy.tHOLD0
          else s.port q := by
        rw [run, confirmEffects_port, port_congr (show (writeLet i e' s).ports = s.ports from rfl) q]
        rfl
      exact
        { owed := by rw [evidence]; rfl
          empty := fun j h => by
            rw [slot, if_neg]
            · exact h
            · rintro rfl; rw [occupied] at h; cases h
          kept := fun j f h out => by
            rw [slot, if_neg]
            · exact h
            · rintro rfl
              rw [occupied] at h
              cases h
              exact out.elim (fun o => o (List.mem_singleton_self j)) (fun o => o has)
          confirmed := fun j f h mem _ => by
            obtain rfl := List.mem_singleton.mp mem
            rw [occupied] at h
            cases h
            rw [slot, if_pos rfl]
          struck := fun q blamed blockable => by
            obtain ⟨f, h, -, victim⟩ := blamed_single.mp blamed
            rw [occupied] at h
            cases h
            rw [port, if_pos ⟨victim, blockable⟩]
          stays := fun q out => by
            rw [port, if_neg]
            rintro ⟨victim, blockable⟩
            rcases out with out | out
            · exact out (blamed_single.mpr ⟨e, occupied, has, victim⟩)
            · rw [blockable] at out; cases out }
    · next has => exact still fun f h => by rw [occupied] at h; cases h; exact has

/-! ### All slots -/

/-- The interlock over one slot and then over others. -/
theorem Interlocked.cons {p : Port} {i : Fin 16} {l : List (Fin 16)} {s t u : State} (fresh : i ∉ l)
    (control : t.control = s.control) (h : Interlocked p [i] s t) (k : Interlocked p l t u) :
    Interlocked p (i :: l) s u := by
  have same {j : Fin 16} (mem : j ∈ l) : t.evidence.slots.get j = s.evidence.slots.get j := by
    have other : j ∉ [i] := fun e => fresh (List.mem_singleton.mp e ▸ mem)
    cases entry : s.evidence.slots.get j with
    | none => exact h.empty j entry
    | some e => exact h.kept j e entry (Or.inl other)
  have blames (q : Port) : Blamed p (i :: l) q s ↔ Blamed p [i] q s ∨ Blamed p l q t := by
    constructor
    · rintro ⟨j, mem, e, entry, rest⟩
      rcases List.mem_cons.mp mem with rfl | mem
      · exact Or.inl ⟨j, List.mem_singleton_self j, e, entry, rest⟩
      · exact Or.inr ⟨j, mem, e, (same mem).trans entry, rest⟩
    · rintro (⟨j, mem, rest⟩ | ⟨j, mem, e, entry, rest⟩)
      · obtain rfl := List.mem_singleton.mp mem
        exact ⟨j, List.mem_cons_self, rest⟩
      · exact ⟨j, List.mem_cons_of_mem _ mem, e, (same mem).symm.trans entry, rest⟩
  refine
    { owed := k.owed.trans h.owed
      empty := fun j none => k.empty j (h.empty j none)
      kept := fun j e entry out => ?_
      confirmed := fun j e entry mem has => ?_
      struck := fun q blamed blockable => ?_
      stays := fun q out => ?_ }
  · have out' : (j ∉ [i] ∨ ¬ e.Has p) ∧ (j ∉ l ∨ ¬ e.Has p) := by
      simp only [List.mem_cons, not_or, List.not_mem_nil, or_false] at out ⊢
      tauto
    exact k.kept j e (h.kept j e entry out'.1) out'.2
  · rcases List.mem_cons.mp mem with rfl | mem
    · exact k.kept j _ (h.confirmed j e entry (List.mem_singleton_self j) has) (Or.inl fresh)
    · have := k.confirmed j e ((same mem).trans entry) mem has
      rwa [control] at this
  · by_cases first : Blamed p [i] q s
    · have struck := h.struck q first blockable
      rw [k.stays q (Or.inr (by rw [struck]; exact struck_not_blockable _ _)), struck]
    · have unchanged := h.stays q (Or.inl first)
      have later := k.struck q (((blames q).mp blamed).resolve_left first) (by rw [unchanged]; exact blockable)
      rw [later, unchanged, control]
  · have first : t.port q = s.port q := h.stays q (out.imp_left fun o b => o ((blames q).mpr (Or.inl b)))
    rw [k.stays q ?_, first]
    rw [first]
    exact out.imp_left fun o b => o ((blames q).mpr (Or.inr b))

theorem interlockFold_spec (p : Port) (l : List (Fin 16)) (once : l.Nodup) (s : State) :
    Interlocked p l s (l.foldl (fun t i => interlockSlot p i t) s) := by
  induction l generalizing s with
  | nil =>
    exact
      { owed := rfl
        empty := fun _ h => h
        kept := fun _ _ h _ => h
        confirmed := fun _ _ _ mem => absurd mem List.not_mem_nil
        struck := fun _ ⟨_, mem, _⟩ => absurd mem List.not_mem_nil
        stays := fun _ _ => rfl }
  | cons i l ih =>
    obtain ⟨fresh, rest⟩ := List.nodup_cons.mp once
    exact (interlockSlot_spec p i s).cons fresh (frame_interlockSlot p i s .control (by decide)) (ih rest _)

theorem interlock_spec (p : Port) (s : State) : Interlocked p (List.finRange 16) s (interlock p s) :=
  interlockFold_spec p _ (List.nodup_finRange 16) s

/-- A port in no entry has nothing to interlock. -/
theorem interlock_uninvolved {p : Port} {s : State} (h : ¬ Involved s p) : interlock p s = s := by
  have slot (i : Fin 16) : interlockSlot p i s = s := by
    unfold interlockSlot
    split
    · rfl
    · next e entry => exact if_neg fun has => h ⟨i, e, entry, has⟩
  unfold interlock
  generalize List.finRange 16 = l
  induction l with
  | nil => rfl
  | cons i l ih => rw [List.foldl_cons, slot]; exact ih

end Sys2Proof.Machine
end

section
/-! SUPPORT. The trip and the clear event of a taken DIGEST (R30, R64, R89 to R93, R150). -/

namespace Sys2Proof.Machine

/-! ### A wake event and the updated record -/

theorem frame_woken (k : WakeKind) (p : Port) (s : State) : OnlyChanges [.control, .reports] s (s.woken k p) :=
  wake_eq_woken k p s ▸ frame_wake k p s

/-- The effect of a wake event on the Mode Unit depends on the Mode Unit alone. -/
theorem woken_control_congr (k : WakeKind) (p : Port) {s t : State} (h : t.control = s.control) :
    (t.woken k p).control = (s.woken k p).control := by
  unfold State.woken
  rw [h]
  split
  · rfl
  · exact h

theorem woken_reports_congr (k : WakeKind) (p : Port) {s t : State} (control : t.control = s.control)
    (reports : t.reports = s.reports) (clock : t.clock = s.clock) :
    (t.woken k p).reports = (s.woken k p).reports := by
  unfold State.woken
  rw [control]
  split
  · exact report_reports_congr _ reports (congrArg IntervalClock.stamp clock)
  · exact reports

theorem woken_policy (k : WakeKind) (p : Port) (s : State) : (s.woken k p).control.policy = s.control.policy := by
  unfold State.woken
  split <;> rfl

theorem woken_watch (k : WakeKind) (p : Port) (s : State) : (s.woken k p).reports.watch = s.reports.watch := by
  unfold State.woken
  split
  · exact report_watch _ _
  · rfl

theorem watchDigest_none {p : Port} {r : PortRec} {s : State} (h : s.reports.watch = none) :
    watchDigest p r s = s := by
  unfold watchDigest
  rw [h]

/-- The state in which the events of a taken DIGEST begin: the receiver is in HUNT and the record updated. -/
def metered (p : Port) (f : BitVec 16) (s : State) : State := updated p f.toNat s.received

theorem frame_metered (p : Port) (f : BitVec 16) (s : State) : OnlyChanges [.ports, .glink] s (metered p f s) :=
  OnlyChanges.comp (l' := [.ports]) (OnlyChanges.mono (frame_set_glink s _) (by decide)) (frame_setPort _ _ _)
    (by decide)

theorem metered_self (p : Port) (f : BitVec 16) (s : State) :
    (metered p f s).port p = meterUpdate (s.rowAt p) f.toNat (s.port p) := port_setPort_self ..

theorem metered_other {p q : Port} (f : BitVec 16) (s : State) (h : q ≠ p) : (metered p f s).port q = s.port q := by
  rw [metered, updated_port, if_neg h, received_port]

/-- The update leaves the guard record of every port. -/
theorem metered_guard (p q : Port) (f : BitVec 16) (s : State) :
    ((metered p f s).port q).guard = (s.port q).guard ∧ ((metered p f s).port q).strike = (s.port q).strike ∧
      ((metered p f s).port q).role = (s.port q).role := by
  by_cases h : q = p
  · subst h; rw [metered_self]; exact ⟨rfl, rfl, rfl⟩
  · rw [metered_other f s h]; exact ⟨rfl, rfl, rfl⟩

theorem exec_digest_taken {p : Port} {stamp : Byte} {s : State} (h : DigestTaken p stamp s) (f : BitVec 16) :
    exec (.digest (portField p) stamp f) s = .next (takeDigest p f.toNat s.received) := by
  rw [exec_digest_up p stamp f h.running h.link, digestAtMeter_taken (s := s.received) h.current]
  · rw [received_port, metered_iff]; exact ⟨h.present, h.up, h.guarded⟩
  · rw [received_port]; exact h.fresh

/-- The trip flag after the update (R29). -/
theorem meterUpdate_trip_iff (p : Port) (f : BitVec 16) (s : State) :
    (meterUpdate (s.rowAt p) f.toNat (s.port p)).trip = true ↔
      if (s.port p).trip then 256 * (s.rowAt p).tclear ≤ nextAverage p f s
      else 256 * (s.rowAt p).ttrip ≤ nextAverage p f s := by
  rw [meterUpdate_trip, meterUpdate_average]
  rfl

/-! ### The trip event -/

/-- With no entry that fails, a trip event is the wake, the interlock, and the Port Guard's part (R64). -/
theorem tripEvent_sound {p : Port} {s : State} (sound : LetSound s) :
    tripEvent p s =
      if ((interlock p (s.woken .trip p)).port p).guard = .blocked then interlock p (s.woken .trip p)
      else tripPassed p (interlock p (s.woken .trip p)) := by
  have awake : LetSound (s.woken .trip p) := sound.congr (frame_woken _ _ s .evidence (by decide))
  have owed : (interlock p (s.woken .trip p)).evidence.sweepOwed = false :=
    (interlock_spec p _).owed.trans awake.1
  have passed : (tripPassed p (interlock p (s.woken .trip p))).evidence.sweepOwed = false := by
    rw [show (tripPassed p (interlock p (s.woken .trip p))).evidence = (interlock p (s.woken .trip p)).evidence from
      frame_tripPassed p _ .evidence (by decide)]
    exact owed
  unfold tripEvent
  rw [wake_eq_woken, readLet_sound awake]
  dsimp only
  split
  · exact settleSweep_clear owed
  · exact settleSweep_clear passed

theorem tripPassed_throttles {p : Port} {s : State} (h : (s.port p).guard = .forward ∨ (s.port p).guard = .suspect) :
    tripPassed p s = goThrottle p .trip s := by
  unfold tripPassed
  rcases h with h | h <;> rw [h]

theorem goThrottle_other {p q : Port} (c : StateCause) (s : State) (h : q ≠ p) :
    (goThrottle p c s).port q = s.port q := by rw [goThrottle, moveGuard_port, if_neg h]

theorem tripPassed_other {p q : Port} (s : State) (h : q ≠ p) : (tripPassed p s).port q = s.port q := by
  unfold tripPassed
  split
  · exact goThrottle_other _ s h
  · exact goThrottle_other _ s h
  · exact port_modPort_ne _ _ h
  · exact port_modPort_ne _ _ h
  all_goals rfl

theorem metered_sound {p : Port} {s : State} (f : BitVec 16) (h : LetSound s) : LetSound (metered p f s) :=
  h.congr (frame_metered p f s .evidence (by decide))

/-- What the trip event of a taken DIGEST leaves of Mode Unit and reports before its own records. -/
theorem metered_woken (p : Port) (f : BitVec 16) (s : State) :
    ((metered p f s).woken .trip p).control = (s.woken .trip p).control ∧
      ((metered p f s).woken .trip p).reports = (s.woken .trip p).reports :=
  ⟨woken_control_congr _ _ (frame_metered p f s .control (by decide)),
    woken_reports_congr _ _ (frame_metered p f s .control (by decide)) (frame_metered p f s .reports (by decide))
      (frame_metered p f s .clock (by decide))⟩

theorem metered_woken_row (p q : Port) (f : BitVec 16) (s : State) :
    ((metered p f s).woken .trip p).rowAt q = s.rowAt q := by
  unfold State.rowAt
  rw [woken_policy, woken_port, (metered_guard p q f s).2.2,
    show (metered p f s).control = s.control from frame_metered p f s .control (by decide)]

/-- A trip of a port that is named by no evidence throttles it (R89, R91). -/
theorem trip_throttles (s : State) (p : Port) (stamp : Byte) (f : BitVec 16) (taken : DigestTaken p stamp s)
    (sound : LetSound s) (unwatched : s.reports.watch = none) (uninvolved : ¬ Involved s p)
    (before : (s.port p).trip = false) (guard : (s.port p).guard = .forward ∨ (s.port p).guard = .suspect)
    (trips : 256 * (s.rowAt p).ttrip ≤ nextAverage p f s) :
    ∃ t, exec (.digest (portField p) stamp f) s = .next t ∧
      OnlyChanges [.ports, .reports, .control, .glink] s t ∧
      (t.port p).guard = .throttle ∧ (t.port p).trip = true ∧
      (t.port p).throttleHold = (s.rowAt p).nthr ∧ (t.port p).decay = 0 ∧
      (t.port p).wanted = wantedOf (s.port p).override .throttle ∧
      (∀ q, q ≠ p → t.port q = s.port q) ∧
      t.control = (s.woken .trip p).control ∧
      t.reports = (report (.state p (s.port p).guard .throttle .trip) (s.woken .trip p)).reports := by
  have after : (meterUpdate (s.rowAt p) f.toNat (s.port p)).trip = true :=
    (meterUpdate_trip_iff p f s).mpr (by rw [before]; exact trips)
  let w := (metered p f s).woken .trip p
  have frame : OnlyChanges [.ports, .reports, .control, .glink] s w :=
    ((frame_metered p f s).mono (by decide)).comp (frame_woken _ _ _) (by decide)
  have self : w.port p = meterUpdate (s.rowAt p) f.toNat (s.port p) := by rw [woken_port, metered_self]
  have still : interlock p w = w := interlock_uninvolved fun ⟨i, e, entry, has⟩ =>
    uninvolved ⟨i, e, by rw [← show w.evidence = s.evidence from frame .evidence (by decide)]; exact entry, has⟩
  have event : tripEvent p (metered p f s) = goThrottle p .trip w := by
    have guard' : (w.port p).guard = .forward ∨ (w.port p).guard = .suspect := by rw [self]; exact guard
    rw [tripEvent_sound (metered_sound f sound), still, if_neg, tripPassed_throttles guard']
    rcases guard' with g | g <;> rw [g] <;> decide
  have reports : (goThrottle p .trip w).reports =
      (report (.state p (s.port p).guard .throttle .trip) (s.woken .trip p)).reports := by
    rw [goThrottle, moveGuard_reports, self]
    exact report_reports_congr _ (metered_woken p f s).2
      (congrArg IntervalClock.stamp ((frame .clock (by decide)).trans (frame_woken _ _ s .clock (by decide)).symm))
  have run : takeDigest p f.toNat s.received = goThrottle p .trip w := by
    rw [takeDigest_tripped (s := s.received) before after]
    show watchDigest _ _ (tripEvent p (metered p f s)) = _
    rw [event, watchDigest_none]
    rw [reports, report_watch, woken_watch, unwatched]
  have record : (goThrottle p .trip w).port p =
      (meterUpdate (s.rowAt p) f.toNat (s.port p)).enter .throttle (s.rowAt p).nthr 0 := by
    rw [goThrottle, moveGuard_port, if_pos rfl, self, metered_woken_row]
  obtain ⟨throttled, -, hold, -, decay, -, -, -, -, wanted⟩ :=
    enter_spec (meterUpdate (s.rowAt p) f.toNat (s.port p)) .throttle (s.rowAt p).nthr 0
  refine ⟨_, run ▸ exec_digest_taken taken f, frame.comp (frame_goThrottle _ _ _) (by decide), ?_⟩
  rw [record]
  refine ⟨throttled, (enter_fields _ _ _ _).trip.trans after, hold, decay, wanted, fun q hq => ?_, ?_, reports⟩
  · rw [goThrottle, moveGuard_port, if_neg hq, woken_port, metered_other f s hq]
  · exact (frame_goThrottle p .trip w .control (by decide)).trans (metered_woken p f s).1

end Sys2Proof.Machine
end

section
/-! SUPPORT. The storm interlock and the clear event of a taken DIGEST, as the statement of the two names them (R64,
R92, R93). -/

namespace Sys2Proof.Machine

/-! ### The Port Guard's part of a trip event -/

theorem blockable_iff (g : GuardState) :
    g.blockable = true ↔ g = .listen ∨ g = .forward ∨ g = .suspect ∨ g = .throttle := by
  cases g <;> decide

/-- What the Port Guard makes of a trip that is passed on to a port it has not blocked (R89, R91, R94). -/
structure TripPassed (nthr : Nat) (r u : PortRec) : Prop where
  throttled : r.guard = .forward ∨ r.guard = .suspect → u.guard = .throttle ∧ u.throttleHold = nthr
  renewed : r.guard = .throttle → u.guard = .throttle ∧ u.throttleHold = nthr
  listening : r.guard = .listen → u.guard = .listen ∧ u.listen = 0

theorem tripPassed_spec (p : Port) (s : State) :
    TripPassed (s.rowAt p).nthr (s.port p) ((tripPassed p s).port p) := by
  refine ⟨fun h => ?_, fun h => ?_, fun h => ?_⟩
  · obtain ⟨guard, -, hold, -⟩ := enter_spec (s.port p) .throttle (s.rowAt p).nthr 0
    rw [tripPassed_throttles h, goThrottle, moveGuard_port, if_pos rfl]
    exact ⟨guard, hold⟩
  · unfold tripPassed
    rw [h]
    simp only [port_modPort_self]
    exact ⟨h, rfl⟩
  · unfold tripPassed
    rw [h]
    simp only [port_modPort_self]
    exact ⟨h, trivial⟩

/-! ### The interlock of a taken DIGEST -/

/-- The trip event of a taken DIGEST after its wake and its interlock, before the Port Guard's part. -/
def interlocked (p : Port) (f : BitVec 16) (s : State) : State := interlock p ((metered p f s).woken .trip p)

section
variable {p : Port} {f : BitVec 16} {s : State}

theorem frame_metered_woken (p : Port) (f : BitVec 16) (s : State) :
    OnlyChanges [.ports, .reports, .control, .glink] s ((metered p f s).woken .trip p) :=
  ((frame_metered p f s).mono (by decide)).comp (frame_woken _ _ _) (by decide)

theorem frame_interlocked (p : Port) (f : BitVec 16) (s : State) :
    OnlyChanges [.ports, .reports, .control, .evidence, .glink] s (interlocked p f s) :=
  ((frame_metered_woken p f s).mono (by decide)).comp (frame_interlock _ _) (by decide)

theorem interlocked_spec (p : Port) (f : BitVec 16) (s : State) :
    Interlocked p (List.finRange 16) ((metered p f s).woken .trip p) (interlocked p f s) := interlock_spec p _

theorem metered_woken_slots (p : Port) (f : BitVec 16) (s : State) :
    ((metered p f s).woken .trip p).evidence = s.evidence := frame_metered_woken p f s .evidence (by decide)

/-- The entries of the tripping port that name a port victim. -/
theorem blamed_metered (q : Port) :
    Blamed p (List.finRange 16) q ((metered p f s).woken .trip p) ↔
      ∃ i e, s.evidence.slots.get i = some e ∧ e.Has p ∧ e.victim = some q := by
  unfold Blamed
  simp only [metered_woken_slots, List.mem_finRange, true_and]

/-- A port that no entry of the tripping port names victim passes through the interlock. -/
theorem interlocked_unnamed {q : Port}
    (unnamed : ∀ i e, s.evidence.slots.get i = some e → e.Has p → e.victim ≠ some q) :
    (interlocked p f s).port q = (metered p f s).port q := by
  have stays := (interlocked_spec p f s).stays q (Or.inl fun blamed => by
    obtain ⟨i, e, entry, has, victim⟩ := (blamed_metered q).mp blamed
    exact unnamed i e entry has victim)
  rw [stays, woken_port]

theorem interlocked_policy (p : Port) (f : BitVec 16) (s : State) :
    (interlocked p f s).control = (s.woken .trip p).control ∧
      (interlocked p f s).control.policy = s.control.policy := by
  have control : (interlocked p f s).control = (s.woken .trip p).control :=
    (frame_interlock p _ .control (by decide)).trans (metered_woken p f s).1
  exact ⟨control, by rw [control, woken_policy]⟩

/-- A victim in a blockable state is blocked with its next strike (R65, R90, R95). -/
theorem interlocked_blocks {q : Port} {i : Fin 16} {e : LetEntry} (entry : s.evidence.slots.get i = some e)
    (has : e.Has p) (victim : e.victim = some q) (blockable : (s.port q).guard.blockable = true) :
    ((interlocked p f s).port q).guard = .blocked ∧
      ((interlocked p f s).port q).strike = min 6 ((s.port q).strike + 1) ∧
      ((interlocked p f s).port q).hold = s.control.policy.tHOLD0 * 2 ^ (min 6 ((s.port q).strike + 1) - 1) := by
  obtain ⟨guard, strike, -⟩ := metered_guard p q f s
  have struck := (interlocked_spec p f s).struck q ((blamed_metered q).mpr ⟨i, e, entry, has, victim⟩)
    (by rw [woken_port, guard]; exact blockable)
  rw [woken_policy, show (metered p f s).control = s.control from frame_metered p f s .control (by decide),
    woken_port] at struck
  obtain ⟨strike', hold'⟩ := struck_counts s.control.policy.tHOLD0 ((metered p f s).port q)
  rw [struck]
  exact ⟨struck_guard _ _, strike'.trans (by rw [strike]; rfl), hold'.trans (by rw [strike]; rfl)⟩

/-! ### The whole trip event -/

/-- The trip event of a taken DIGEST. -/
def tripped (p : Port) (f : BitVec 16) (s : State) : State :=
  if ((interlocked p f s).port p).guard = .blocked then interlocked p f s else tripPassed p (interlocked p f s)

theorem frame_tripped (p : Port) (f : BitVec 16) (s : State) :
    OnlyChanges [.ports, .reports] (interlocked p f s) (tripped p f s) := by
  unfold tripped
  split
  · exact OnlyChanges.refl _ _
  · exact frame_tripPassed p _

theorem tripped_other {q : Port} (h : q ≠ p) : (tripped p f s).port q = (interlocked p f s).port q := by
  unfold tripped
  split
  · rfl
  · exact tripPassed_other _ h

theorem tripped_blocked {q : Port} (h : ((interlocked p f s).port q).guard = .blocked) :
    (tripped p f s).port q = (interlocked p f s).port q := by
  by_cases same : q = p
  · subst same
    rw [tripped, if_pos h]
  · exact tripped_other same

theorem tripped_passed (h : ((interlocked p f s).port p).guard ≠ .blocked) :
    TripPassed ((interlocked p f s).rowAt p).nthr ((interlocked p f s).port p) ((tripped p f s).port p) := by
  unfold tripped
  rw [if_neg h]
  exact tripPassed_spec p _

theorem takeDigest_trip (sound : LetSound s) (before : (s.port p).trip = false)
    (trips : 256 * (s.rowAt p).ttrip ≤ nextAverage p f s) :
    takeDigest p f.toNat s.received =
      watchDigest p (meterUpdate (s.rowAt p) f.toNat (s.port p)) (tripped p f s) := by
  rw [takeDigest_tripped (s := s.received) before
    ((meterUpdate_trip_iff p f s).mpr (by rw [before]; exact trips))]
  exact congrArg _ (tripEvent_sound (metered_sound f sound))

/-- The records of the trip event are appended behind that of its wake. -/
theorem tripped_appends (p : Port) (f : BitVec 16) (s : State) (r : PortRec) :
    (s.woken .trip p).reports.queue <+: (watchDigest p r (tripped p f s)).reports.queue := by
  have passed : Appends (interlocked p f s) (tripped p f s) := by
    unfold tripped
    split
    · exact Appends.refl _
    · exact appends_tripPassed p _
  rw [← (metered_woken p f s).2]
  exact ((appends_interlock p _).comp (passed.comp (appends_watchDigest p r _))).1

end

/-- A trip confirms the entries of its port, blocks their victims, and passes on to a port it has not blocked (R64). -/
theorem trip_interlocks (s : State) (p : Port) (stamp : Byte) (f : BitVec 16) (taken : DigestTaken p stamp s)
    (sound : LetSound s) (before : (s.port p).trip = false)
    (trips : 256 * (s.rowAt p).ttrip ≤ nextAverage p f s) :
    let has : LetEntry → Prop := fun e => e.egress = p ∨ e.ingress = p
    ∃ t, exec (.digest (portField p) stamp f) s = .next t ∧
      OnlyChanges [.ports, .reports, .control, .evidence, .glink] s t ∧
      (t.port p).trip = true ∧
      t.control = (s.woken .trip p).control ∧
      (s.woken .trip p).reports.queue <+: t.reports.queue ∧
      (∀ i, s.evidence.slots.get i = none → t.evidence.slots.get i = none) ∧
      (∀ i e, s.evidence.slots.get i = some e →
        (has e →
          t.evidence.slots.get i =
            some { e with count := max e.count s.control.policy.nCONF, confirmed := true }) ∧
        (¬ has e → t.evidence.slots.get i = some e)) ∧
      (∀ i e v, s.evidence.slots.get i = some e → has e → e.victim = some v →
        ((s.port v).guard = .listen ∨ (s.port v).guard = .forward ∨ (s.port v).guard = .suspect ∨
          (s.port v).guard = .throttle) →
        (t.port v).guard = .blocked ∧ (t.port v).strike = min 6 ((s.port v).strike + 1) ∧
        (t.port v).hold = s.control.policy.tHOLD0 * 2 ^ (min 6 ((s.port v).strike + 1) - 1)) ∧
      ((∀ i e, s.evidence.slots.get i = some e → has e → e.victim ≠ some p) →
        ((s.port p).guard = .forward ∨ (s.port p).guard = .suspect →
          (t.port p).guard = .throttle ∧ (t.port p).throttleHold = (s.rowAt p).nthr) ∧
        ((s.port p).guard = .throttle →
          (t.port p).guard = .throttle ∧ (t.port p).throttleHold = (s.rowAt p).nthr) ∧
        ((s.port p).guard = .listen → (t.port p).guard = .listen ∧ (t.port p).listen = 0) ∧
        ((s.port p).guard = .blocked → (t.port p).guard = .blocked ∧ (t.port p).hold = (s.port p).hold)) ∧
      ∀ q, q ≠ p → (∀ i e, s.evidence.slots.get i = some e → has e → e.victim ≠ some q) →
        t.port q = s.port q := by
  intro has
  let r := meterUpdate (s.rowAt p) f.toNat (s.port p)
  have after : r.trip = true := (meterUpdate_trip_iff p f s).mpr (by rw [before]; exact trips)
  have run := takeDigest_trip sound before trips
  have watched := frame_watchDigest p r (tripped p f s)
  have guardFrame := (frame_tripped p f s).comp watched (by decide)
  have spec := interlocked_spec p f s
  have evidence : (watchDigest p r (tripped p f s)).evidence = (interlocked p f s).evidence :=
    guardFrame .evidence (by decide)
  have port (q : Port) : (watchDigest p r (tripped p f s)).port q = (tripped p f s).port q :=
    port_congr (watched .ports (by decide)) q
  refine ⟨_, run ▸ exec_digest_taken taken f, (frame_interlocked p f s).comp guardFrame (by decide), ?_, ?_,
    tripped_appends p f s r, fun i free => ?_, fun i e entry => ⟨fun mine => ?_, fun other => ?_⟩,
    fun i e v entry mine victim guard => ?_, fun unnamed => ?_, fun q hq unnamed => ?_⟩
  · rw [← run]
    refine (takeDigest_kept p f.toNat s.received p).trip.trans ?_
    exact (congrArg PortRec.trip (metered_self p f s)).trans after
  · exact (guardFrame .control (by decide)).trans (interlocked_policy p f s).1
  · rw [evidence]
    exact spec.empty i (by rw [metered_woken_slots]; exact free)
  · rw [evidence, spec.confirmed i e (by rw [metered_woken_slots]; exact entry) (List.mem_finRange i) mine,
      woken_policy, show (metered p f s).control = s.control from frame_metered p f s .control (by decide),
      LetEntry.confirmedBy, ← sound.2 i e entry]
  · rw [evidence]
    exact spec.kept i e (by rw [metered_woken_slots]; exact entry) (Or.inr other)
  · have blocked := interlocked_blocks entry mine victim ((blockable_iff _).mpr guard) (f := f)
    rw [port, tripped_blocked blocked.1]
    exact blocked
  · have self : (interlocked p f s).port p = r := (interlocked_unnamed unnamed).trans (metered_self p f s)
    have row : (interlocked p f s).rowAt p = s.rowAt p := by
      unfold State.rowAt
      rw [self, (interlocked_policy p f s).2]
      rfl
    rw [port]
    have passed (h : (s.port p).guard ≠ .blocked) : TripPassed (s.rowAt p).nthr r ((tripped p f s).port p) := by
      have := tripped_passed (p := p) (f := f) (s := s) (by rw [self]; exact h)
      rwa [row, self] at this
    refine ⟨fun h => ?_, fun h => ?_, fun h => ?_, fun h => ?_⟩
    · exact (passed (by rcases h with h | h <;> rw [h] <;> decide)).throttled h
    · exact (passed (by rw [h]; decide)).renewed h
    · exact (passed (by rw [h]; decide)).listening h
    · rw [tripped_blocked (by rw [self]; exact h), self]
      exact ⟨h, rfl⟩
  · rw [port, tripped_other hq, interlocked_unnamed unnamed, metered_other f s hq]

/-! ### The clear event -/

/-- The guard state to which a port whose throttle has ended returns (R92). -/
theorem leaveThrottle_sound {p : Port} {s : State} (sound : LetSound s) {g : GuardState}
    (named : Named s p → g = .suspect) (free : ¬ Named s p → g = .forward) :
    leaveThrottle p s = goPlain p g .clear s := by
  have clear (g : GuardState) : (goPlain p g .clear s).evidence.sweepOwed = false := by
    rw [show (goPlain p g .clear s).evidence = s.evidence from frame_goPlain p g _ s .evidence (by decide)]
    exact sound.1
  unfold leaveThrottle
  rw [readLet_sound sound]
  dsimp only
  by_cases h : Named s p
  · rw [if_pos ((named_iff s p).mpr h), named h]
    exact settleSweep_clear (clear _)
  · rw [if_neg (by rw [(named_false s p).mpr h]; decide), free h]
    exact settleSweep_clear (clear _)

/-- A clear lets its port leave a throttle whose hold has ended, and does nothing else (R93). -/
theorem clear_releases (s : State) (p : Port) (stamp : Byte) (f : BitVec 16) (taken : DigestTaken p stamp s)
    (sound : LetSound s) (unwatched : s.reports.watch = none) (before : (s.port p).trip = true)
    (clears : nextAverage p f s < 256 * (s.rowAt p).tclear) :
    ∃ t, exec (.digest (portField p) stamp f) s = .next t ∧
      OnlyChanges [.ports, .reports, .glink] s t ∧
      (t.port p).trip = false ∧ (∀ q, q ≠ p → t.port q = s.port q) ∧
      (∀ g : GuardState, (Named s p → g = .suspect) → (¬ Named s p → g = .forward) →
        (s.port p).guard = .throttle → (s.port p).throttleHold = 0 →
        (t.port p).guard = g ∧ t.reports = (report (.state p .throttle g .clear) s).reports) ∧
      (¬((s.port p).guard = .throttle ∧ (s.port p).throttleHold = 0) →
        (t.port p).guard = (s.port p).guard ∧ (t.port p).throttleHold = (s.port p).throttleHold ∧
        t.reports = s.reports) := by
  have after : (meterUpdate (s.rowAt p) f.toNat (s.port p)).trip = false := by
    rw [Bool.eq_false_iff, Ne, meterUpdate_trip_iff, if_pos before]
    exact not_le.mpr clears
  have frame := frame_metered p f s
  have evidence : (metered p f s).evidence = s.evidence := frame .evidence (by decide)
  have named : Named (metered p f s) p ↔ Named s p := by unfold Named; rw [evidence]
  have self := metered_self p f s
  have run : takeDigest p f.toNat s.received =
      watchDigest p (meterUpdate (s.rowAt p) f.toNat (s.port p)) (clearEvent p (metered p f s)) :=
    takeDigest_cleared (s := s.received) before after
  by_cases ended : (s.port p).guard = .throttle ∧ (s.port p).throttleHold = 0
  · have event {g : GuardState} (h : Named s p → g = .suspect) (h' : ¬ Named s p → g = .forward) :
        clearEvent p (metered p f s) = goPlain p g .clear (metered p f s) := by
      unfold clearEvent
      rw [if_pos (by rw [self]; exact ended)]
      exact leaveThrottle_sound (metered_sound f sound) (fun n => h (named.mp n)) (fun n => h' (mt named.mpr n))
    have reports (g : GuardState) : (goPlain p g .clear (metered p f s)).reports =
        (report (.state p .throttle g .clear) s).reports := by
      rw [goPlain_reports, self, show (meterUpdate (s.rowAt p) f.toNat (s.port p)).guard = .throttle from ended.1]
      exact report_reports_congr _ (frame .reports (by decide))
        (congrArg IntervalClock.stamp (frame .clock (by decide)))
    have whole {g : GuardState} (h : Named s p → g = .suspect) (h' : ¬ Named s p → g = .forward) :
        takeDigest p f.toNat s.received = goPlain p g .clear (metered p f s) := by
      rw [run, event h h', watchDigest_none]
      rw [reports, report_watch, unwatched]
    obtain ⟨g, suspect, forward⟩ : ∃ g : GuardState, (Named s p → g = .suspect) ∧ (¬ Named s p → g = .forward) := by
      by_cases h : Named s p
      · exact ⟨.suspect, fun _ => rfl, fun n => absurd h n⟩
      · exact ⟨.forward, fun n => absurd n h, fun _ => rfl⟩
    refine ⟨_, exec_digest_taken taken f, ?_, ?_, fun q hq => ?_, fun g' h h' _ _ => ?_, fun n => absurd ended n⟩
    · rw [whole suspect forward]
      exact (frame.mono (by decide)).comp (frame_goPlain _ _ _ _) (by decide)
    · refine (takeDigest_kept p f.toNat s.received p).trip.trans ?_
      exact (congrArg PortRec.trip self).trans after
    · rw [whole suspect forward, goPlain_port, if_neg hq, metered_other f s hq]
    · rw [whole h h', goPlain_port, if_pos rfl]
      exact ⟨(enter_spec ..).1, reports g'⟩
  · have whole : takeDigest p f.toNat s.received = metered p f s := by
      have event : clearEvent p (metered p f s) = metered p f s := by
        unfold clearEvent
        rw [if_neg (by rw [self]; exact ended)]
      rw [run, event, watchDigest_none]
      rw [show (metered p f s).reports = s.reports from frame .reports (by decide), unwatched]
    refine ⟨_, whole ▸ exec_digest_taken taken f, frame.mono (by decide), ?_, fun q hq => metered_other f s hq,
      fun g _ _ throttled hold => absurd ⟨throttled, hold⟩ ended, fun _ => ?_⟩
    · rw [self, after]
    · rw [self]
      exact ⟨rfl, rfl, frame .reports (by decide)⟩

/-- Settles O16: a trip throttles an unnamed port, in general it interlocks, and a clear ends a throttle. -/
theorem tripAndClearEvents : Obligations.TripAndClearEvents :=
  ⟨trip_throttles, trip_interlocks, clear_releases⟩

end Sys2Proof.Machine
end

section
/-! SUPPORT. The requests LESSON, SETP, WATCH, EXTEND and UNWATCH as they are carried out (R34, R161, R165). -/

namespace Sys2Proof.Machine

/-! ### LESSON -/

/-- Settles O41: the action is one refill of every record. -/
theorem lessonRefillsTheCredits : Obligations.LessonRefillsTheCredits := by
  intro s t carried served
  have run : exec (.lesson []) s = .next (sendReply 0x0A (doLesson [] t)) :=
    congrArg Host.Outcome.next (request_served (k := .lesson) carried served)
  exact ⟨lessonRefill t, run, frame_mapPorts _ t, lessonRefill_port t⟩

/-! ### SETP -/

theorem exec_setp {fields : List Byte} {s t : State} (carried : Carried (0x07 :: fields) s t)
    (managed : t.control.mode = .managed) : exec (.setp fields) s = .next (sendReply 0x07 (doSetp fields t)) :=
  congrArg Host.Outcome.next
    (request_served (k := .setp) carried (by rw [managed]; exact trivial))

/-- The length of a SETP body allows one to sixteen pairs (R181). -/
theorem parsePairs_count {fields : List Byte} {l : List (Byte × Nat)} (fits : lengthFits 0x07 fields.length)
    (parsed : parsePairs fields = some l) : 1 ≤ l.length ∧ l.length ≤ 16 := by
  have length := parsePairs_length fields l parsed
  have fits' : 4 ≤ fields.length ∧ fields.length ≤ 64 ∧ fields.length % 4 = 0 := fits
  omega

/-- Whole pairs that all name a parameter are carried out (R161). -/
theorem doSetp_named {fields : List Byte} {l : List (Byte × Nat)} {pairs : List (Byte × Param × Nat)}
    (count : 1 ≤ l.length ∧ l.length ≤ 16) (parsed : parsePairs fields = some l) (named : namePairs l = some pairs)
    (t : State) : doSetp fields t = setpPairs pairs t := by
  unfold doSetp
  simp only [parsed, Option.bind_some, if_pos count, named]

/-- An identifier that names no parameter is answered RANGE (R161). -/
theorem doSetp_unnamed {fields : List Byte} {l : List (Byte × Nat)} (count : 1 ≤ l.length ∧ l.length ≤ 16)
    (parsed : parsePairs fields = some l) (unnamed : namePairs l = none) (t : State) :
    doSetp fields t = refuse .range t := by
  unfold doSetp
  simp only [parsed, Option.bind_some, if_pos count, unnamed]

/-- The extra pairs are those of the parameters that the request does not name (R161). -/
theorem extraPairs_eq (pairs : List (Byte × Param × Nat)) (before after : Policy) :
    extraPairs pairs before after =
      crossParams.filter fun x =>
        decide (after.get x.2 ≠ before.get x.2) && pairs.all fun y => decide (y.2.1 ≠ x.2) := by
  unfold extraPairs
  simp only [List.all_eq_not_any_not, decide_not, Bool.not_not]

/-- Settles O44: the pairs are named, clamped one after another, cross-clamped and applied. -/
theorem setpWritesClampedValues : Obligations.SetpWritesClampedValues := by
  intro fields s t carried managed fits l parsed
  have count := parsePairs_count fits parsed
  rw [exec_setp carried managed]
  refine ⟨fun unnamed => ?_, fun pairs named => ?_⟩
  · rw [doSetp_unnamed count parsed unnamed]
    rfl
  intro q1 q unnamed
  refine ⟨applyPolicy q t, ?_, ?_, rfl, applyPolicy_port q t⟩
  · rw [doSetp_named count parsed named, setpPairs]
    simp only [extraPairs_eq]
    rfl
  · exact (frame_applyPolicy q t).mono (by decide)

/-! ### WATCH, EXTEND and UNWATCH -/

theorem exec_watch {fields : List Byte} {s t : State} (carried : Carried (0x0C :: fields) s t)
    (served : servedIn t.control.mode 0x0C) : exec (.watch fields) s = .next (sendReply 0x0C (doWatch fields t)) :=
  congrArg Host.Outcome.next (request_served (k := .watch) carried served)

theorem exec_extend {fields : List Byte} {s t : State} (carried : Carried (0x0D :: fields) s t)
    (served : servedIn t.control.mode 0x0D) : exec (.extend fields) s = .next (sendReply 0x0D (doExtend fields t)) :=
  congrArg Host.Outcome.next (request_served (k := .extend) carried served)

theorem exec_unwatch {fields : List Byte} {s t : State} (carried : Carried (0x0E :: fields) s t)
    (served : servedIn t.control.mode 0x0E) :
    exec (.unwatch fields) s = .next (sendReply 0x0E (doUnwatch fields t)) :=
  congrArg Host.Outcome.next (request_served (k := .unwatch) carried served)

theorem natOf_pair (a b : Byte) : natOf [a, b] = a.toNat * 256 + b.toNat := by
  simp [natOf]

/-- The decimation in the reply of a WATCH (R165). -/
theorem decimationByte (d : Byte) : BitVec.ofNat 8 (max 1 d.toNat) = if d = 0 then 1 else d := by
  split
  · next zero => rw [zero]; rfl
  · next positive =>
    have : 1 ≤ d.toNat := Nat.one_le_iff_ne_zero.mpr fun h => positive (BitVec.eq_of_toNat_eq h)
    rw [Nat.max_eq_right this, BitVec.ofNat_toNat, BitVec.setWidth_eq]

/-- A WATCH is refused for a port beyond the table and while a watch runs, and otherwise starts one (R165, R172). -/
theorem watch_requests (b n1 n0 d : Byte) (s t : State) (carried : Carried [0x0C, b, n1, n0, d] s t)
    (served : servedIn t.control.mode 0x0C) :
    (27 < b.toNat → exec (.watch [b, n1, n0, d]) s = .next (t.replying [0x8C, 0x04])) ∧
    (b.toNat ≤ 27 → t.reports.watch ≠ none →
      exec (.watch [b, n1, n0, d]) s = .next (t.replying [0x8C, 0x01])) ∧
    ∀ p : Port, b = portByte p → t.reports.watch = none →
      let n := n1.toNat * 256 + n0.toNat
      exec (.watch [b, n1, n0, d]) s =
        .next (State.replying
          { t with
            reports :=
              { t.reports with
                watch := some
                  { port := p
                    remaining := if n = 0 then none else some n
                    decimation := max 1 d.toNat
                    counter := 0
                    slot := none
                    skipped := 0 } } }
          [0x8C, 0x00, b, n1, n0, if d = 0 then 1 else d]) := by
  rw [exec_watch carried served, doWatch]
  refine ⟨fun beyond => ?_, fun within running => ?_, fun p named idle => ?_⟩
  · rw [portOfByte_none beyond]
    rfl
  · have some' : t.reports.watch.isSome = true := Option.isSome_iff_ne_none.mpr running
    simp only [portOfByte_some within, some', if_true]
    rfl
  · have none' : t.reports.watch.isSome = false := by rw [idle]; rfl
    rw [named, portOfByte_portByte]
    simp only [none', Bool.false_eq_true, if_false, decimationByte, newWatch, natOf_pair]
    rfl

/-- An EXTEND fills the slot of a running watch (R165, R174). -/
theorem extend_requests (m1 m0 : Byte) (s t : State) (carried : Carried [0x0D, m1, m0] s t)
    (served : servedIn t.control.mode 0x0D) :
    let m := max 1 (m1.toNat * 256 + m0.toNat)
    (t.reports.watch = none → exec (.extend [m1, m0]) s = .next (t.replying [0x8D, 0x06])) ∧
    ∀ w, t.reports.watch = some w →
      (w.slot ≠ none → exec (.extend [m1, m0]) s = .next (t.replying [0x8D, 0x01])) ∧
      (w.slot = none →
        exec (.extend [m1, m0]) s =
          .next (State.replying
            { t with reports := { t.reports with watch := some { w with slot := some m } } }
            ([0x8D, 0x00] ++ bytesOf 2 m))) := by
  intro m
  rw [exec_extend carried served, doExtend]
  refine ⟨fun idle => ?_, fun w running => ⟨fun filled => ?_, fun free => ?_⟩⟩
  · rw [idle]
    rfl
  · have some' : w.slot.isSome = true := Option.isSome_iff_ne_none.mpr filled
    simp only [running, some', if_true]
    rfl
  · have none' : w.slot.isSome = false := by rw [free]; rfl
    simp only [running, none', Bool.false_eq_true, if_false, natOf_pair]
    rfl

/-- An UNWATCH ends a running watch (R165, R175). -/
theorem unwatch_requests (s t : State) (carried : Carried [0x0E] s t) (served : servedIn t.control.mode 0x0E) :
    (t.reports.watch = none → exec (.unwatch []) s = .next (t.replying [0x8E, 0x06])) ∧
    ∀ w, t.reports.watch = some w →
      exec (.unwatch []) s =
        .next (State.replying
          { t with
            reports := { (report (.watchEnd w.port .stopped w.skipped) t).reports with watch := none } }
          [0x8E, 0x00]) := by
  rw [exec_unwatch carried served, doUnwatch]
  refine ⟨fun idle => ?_, fun w running => ?_⟩
  · rw [idle]
    rfl
  · rw [running]
    dsimp only
    rw [stopWatch, report_eq]
    rfl

end Sys2Proof.Machine
end

section
/-! SUPPORT. What a taken DIGEST does to the watch (R31, R173). -/

namespace Sys2Proof.Machine

/-- The count-down of a sample point: from `s` with Report Unit `u` (R173 steps 2 and 3). -/
theorem watchCount_reports {v s : State} {u : ReportUnit} (w : Watch) (reports : v.reports = u)
    (clock : v.clock = s.clock) :
    (w.remaining = none → (watchCount w v).reports = { u with watch := some w }) ∧
    ∀ n, w.remaining = some n →
      (1 < n → (watchCount w v).reports = { u with watch := some { w with remaining := some (n - 1) } }) ∧
      (n ≤ 1 → ∀ m, w.slot = some m →
        (watchCount w v).reports = { u with watch := some { w with remaining := some m, slot := none } }) ∧
      (n ≤ 1 → w.slot = none →
        (watchCount w v).reports =
          { (report (.watchEnd w.port .complete w.skipped) { s with reports := u }).reports with watch := none }) := by
  have last {n : Nat} (h : w.remaining = some n) (le : n ≤ 1) :
      watchCount w v = watchEmptied { w with remaining := some 0 } v := by
    unfold watchCount
    simp only [h]
    rw [if_pos (by omega)]
  refine ⟨fun h => ?_, fun n h => ⟨fun more => ?_, fun le m filled => ?_, fun le free => ?_⟩⟩
  · unfold watchCount
    rw [h, reports]
  · unfold watchCount
    simp only [h]
    rw [if_neg (by omega), reports]
  · rw [last h le, watchEmptied]
    simp only [filled, reports]
  · rw [last h le, watchEmptied]
    simp only [free]
    rw [report_reports_congr (s := { s with reports := u }) _ reports (congrArg IntervalClock.stamp clock)]

theorem watchDigest_other {p : Port} {r : PortRec} {s : State} {w : Watch} (watch : s.reports.watch = some w)
    (h : w.port ≠ p) : watchDigest p r s = s := by
  unfold watchDigest
  simp only [watch]
  rw [if_neg h]

theorem watchDigest_passes {p : Port} {r : PortRec} {s : State} {w : Watch} (watch : s.reports.watch = some w)
    (port : w.port = p) (h : w.counter + 1 < w.decimation) :
    (watchDigest p r s).reports = { s.reports with watch := some { w with counter := w.counter + 1 } } := by
  unfold watchDigest
  simp only [watch]
  rw [if_pos port, if_neg (by omega)]

theorem watchDigest_samples {p : Port} {r : PortRec} {s : State} {w : Watch} (watch : s.reports.watch = some w)
    (port : w.port = p) (h : w.decimation ≤ w.counter + 1) : watchDigest p r s = samplePoint w r s := by
  unfold watchDigest
  simp only [watch]
  rw [if_pos port, if_pos h]

/-- A sample is appended to a queue less than half full, and skipped otherwise (R173 step 1). -/
theorem samplePoint_fits {w : Watch} {r : PortRec} {s : State}
    (h : s.reports.queue.length < 32 ∧ s.reports.overflow = false) :
    samplePoint w r s =
      watchCount { w with counter := 0 } (report (.sample w.port r.lastF r.avgE r.creditB r.trip) s) := if_pos h

theorem samplePoint_skips {w : Watch} {r : PortRec} {s : State}
    (h : ¬ (s.reports.queue.length < 32 ∧ s.reports.overflow = false)) :
    samplePoint w r s = watchCount { w with counter := 0, skipped := min 65535 (w.skipped + 1) } s := if_neg h

/-- A DIGEST that neither trips nor clears its port only updates the record and feeds the watch. -/
theorem takeDigest_quiet {p : Port} {f : BitVec 16} {s : State}
    (stays : (s.port p).trip = true → 256 * (s.rowAt p).tclear ≤ nextAverage p f s)
    (quiet : (s.port p).trip = false → nextAverage p f s < 256 * (s.rowAt p).ttrip) :
    takeDigest p f.toNat s.received =
      watchDigest p (meterUpdate (s.rowAt p) f.toNat (s.port p)) (metered p f s) := by
  refine takeDigest_steady (s := s.received) ?_
  show (meterUpdate (s.rowAt p) f.toNat (s.port p)).trip = (s.port p).trip
  cases before : (s.port p).trip
  · rw [Bool.eq_false_iff, Ne, meterUpdate_trip_iff, before]
    exact not_le.mpr (quiet before)
  · rw [meterUpdate_trip_iff, before]
    exact stays before

/-- The watch at a taken DIGEST: another port's, one between two sample points, and a sample point (R173). -/
theorem watch_samples (s : State) (p : Port) (stamp : Byte) (f : BitVec 16) (w : Watch)
    (taken : DigestTaken p stamp s) (watch : s.reports.watch = some w)
    (stays : (s.port p).trip = true → 256 * (s.rowAt p).tclear ≤ nextAverage p f s)
    (quiet : (s.port p).trip = false → nextAverage p f s < 256 * (s.rowAt p).ttrip) :
    ∃ t, exec (.digest (portField p) stamp f) s = .next t ∧
      OnlyChanges [.ports, .reports, .glink] s t ∧
      (w.port ≠ p → t.reports = s.reports) ∧
      (w.port = p → w.counter + 1 < w.decimation →
        t.reports = { s.reports with watch := some { w with counter := w.counter + 1 } }) ∧
      (w.port = p → w.decimation ≤ w.counter + 1 →
        let fits : Prop := s.reports.queue.length < 32 ∧ s.reports.overflow = false
        let r := t.port p
        ∀ (u : ReportUnit) (skipped : Nat),
          (fits → u = (report (.sample p r.lastF r.avgE r.creditB r.trip) s).reports ∧ skipped = w.skipped) →
          (¬ fits → u = s.reports ∧ skipped = min 65535 (w.skipped + 1)) →
          let w' : Watch := { w with counter := 0, skipped := skipped }
          (w.remaining = none → t.reports = { u with watch := some w' }) ∧
          ∀ n, w.remaining = some n →
            (1 < n → t.reports = { u with watch := some { w' with remaining := some (n - 1) } }) ∧
            (n ≤ 1 → ∀ m, w.slot = some m →
              t.reports = { u with watch := some { w' with remaining := some m, slot := none } }) ∧
            (n ≤ 1 → w.slot = none →
              t.reports =
                { (report (.watchEnd p .complete skipped) { s with reports := u }).reports with watch := none })) := by
  let r := meterUpdate (s.rowAt p) f.toNat (s.port p)
  have frame := frame_metered p f s
  have watched := frame_watchDigest p r (metered p f s)
  have reports : (metered p f s).reports = s.reports := frame .reports (by decide)
  have clock : (metered p f s).clock = s.clock := frame .clock (by decide)
  have watch' : (metered p f s).reports.watch = some w := by rw [reports, watch]
  have self : (watchDigest p r (metered p f s)).port p = r :=
    (port_congr (watched .ports (by decide)) p).trans (metered_self p f s)
  refine ⟨_, (takeDigest_quiet stays quiet) ▸ exec_digest_taken taken f,
    (frame.mono (by decide)).comp watched (by decide), fun other => ?_, fun port passes => ?_, fun port samples => ?_⟩
  · rw [watchDigest_other watch' other, reports]
  · rw [watchDigest_passes watch' port passes, reports]
  · intro fits r' u skipped sampled dropped w'
    have same : r' = r := self
    rw [watchDigest_samples watch' port samples]
    subst port
    by_cases room : fits
    · obtain ⟨rfl, rfl⟩ := sampled room
      rw [samplePoint_fits (by rw [reports]; exact room)]
      refine watchCount_reports (s := s) w' ?_ ((report_clock _ _).trans clock)
      rw [same]
      exact report_reports_congr _ reports (congrArg IntervalClock.stamp clock)
    · obtain ⟨rfl, rfl⟩ := dropped room
      rw [samplePoint_skips (by rw [reports]; exact room)]
      exact watchCount_reports (s := s) w' reports clock

/-- Settles O48: the three requests, and the watch at a taken DIGEST. -/
theorem watchRequestsAndSamples : Obligations.WatchRequestsAndSamples :=
  ⟨watch_requests, extend_requests, unwatch_requests, watch_samples⟩

end Sys2Proof.Machine
end

section
/-! SUPPORT. The interval event: what is still due of the last one, and what the new one moves (R18, R21, R39, R104,
R135, R148). -/

namespace Sys2Proof.Machine

/-! ### The stamp through what is still due -/

/-- The clock after the first steps of a round (R39, R40). -/
theorem roundSteps_clock (s : State) :
    (roundSteps s).clock =
      { s.clock with
        round := some (nextRound s), timer := 0, base := some s.control.policy.tRND, roundDue := false } := by
  have dealt (r : Round) (t : State) : (dealOld r t).clock = t.clock := frame_dealOld r t .clock (by decide)
  unfold roundSteps
  dsimp only
  rw [dealt]

theorem roundSteps_stamp (s : State) : (roundSteps s).clock.stamp = s.clock.stamp := by rw [roundSteps_clock]

theorem takeRound_stamp (s : State) : (takeRound s).clock.stamp = s.clock.stamp := by
  unfold takeRound
  split
  · rw [show (uplinkBook (roundSteps s)).clock = (roundSteps s).clock from frame_uplinkBook _ .clock (by decide)]
    exact roundSteps_stamp s
  · rfl

theorem settleInterval_stamp (s : State) : (settleInterval s).clock.stamp = s.clock.stamp := by
  unfold settleInterval
  dsimp only
  generalize allPorts = l
  have ends : OnlyChanges guardParts (takeRound (expireDue s))
      (l.foldl (fun u p => portEnds p u) (takeRound (expireDue s))) :=
    OnlyChanges.foldl (fun t p => frame_portEnds p t) l _
  have rest := (((ends.mono (by decide)).comp (frame_hostLostEnds _) (by decide)).comp (l := .glink :: fallParts)
    (frame_strobesSent _) (by decide))
  rw [show _ = _ from rest .clock (by decide), takeRound_stamp, show (expireDue s).clock = s.clock from
    frame_expireDue s .clock (by decide)]

/-! ### The parts of an interval event -/

/-- The state of an interval event once the clock, the meter, the strobe and the pacing are done. -/
def strobed (s : State) : State :=
  paceTick (handTx (.strobe ((s.clock.stamp + 1).setWidth 8)) (meterInterval (clockTick s)))

theorem intervalTick_eq (s : State) :
    intervalTick s =
      hostTick ((readOpt (strobed s)).mapPorts fun _ r =>
        tickRec (readOpt (strobed s)).control.policy.tDECAY r) := rfl

/-- What the counts and the scan after the strobe may change. -/
theorem frame_afterStrobe (s : State) :
    OnlyChanges [.probe, .trap, .reports, .ports, .control] (strobed s) (intervalTick s) := by
  rw [intervalTick_eq]
  exact (((frame_readOpt _).mono (by decide)).comp (frame_mapPorts _ _) (by decide)).comp (frame_hostTick _)
    (by decide)

theorem strobed_clock (s : State) : (strobed s).clock = (clockTick s).clock :=
  (frame_paceTick _ .clock (by decide)).trans
    ((frame_handTx _ _ .clock (by decide)).trans (frame_meterInterval _ .clock (by decide)))

theorem strobed_meter (s : State) : (strobed s).meter = (meterInterval (clockTick s)).meter :=
  (frame_paceTick _ .meter (by decide)).trans (frame_handTx _ _ .meter (by decide))

theorem strobed_control (s : State) : (strobed s).control = s.control :=
  (frame_paceTick _ .control (by decide)).trans
    ((frame_handTx _ _ .control (by decide)).trans (frame_meterInterval _ .control (by decide)))

theorem handTx_hands (r : OutRecord) (s : State) :
    (handTx r s).glink.sending = some r ∨ (handTx r s).glink.waiting = some r := by
  unfold handTx
  split
  · exact Or.inl rfl
  · exact Or.inr rfl

theorem strobed_glink (s : State) :
    (strobed s).glink.sending = some (.strobe ((s.clock.stamp + 1).setWidth 8)) ∨
      (strobed s).glink.waiting = some (.strobe ((s.clock.stamp + 1).setWidth 8)) := by
  rw [show (strobed s).glink = _ from frame_paceTick _ .glink (by decide)]
  exact handTx_hands _ _

theorem paceTick_eq (s : State) :
    paceTick s =
      { s with arbiter := { s.arbiter with allowance := s.arbiter.pacing || s.arbiter.allowance } } := by
  unfold paceTick
  cases h : s.arbiter.pacing
  · rw [if_neg (by decide)]
    show s = { s with arbiter := { s.arbiter with allowance := s.arbiter.allowance } }
    rfl
  · rw [if_pos rfl, Bool.true_or]

theorem strobed_arbiter (s : State) :
    (strobed s).arbiter = { s.arbiter with allowance := s.arbiter.pacing || s.arbiter.allowance } := by
  have before : (handTx (.strobe ((s.clock.stamp + 1).setWidth 8)) (meterInterval (clockTick s))).arbiter = s.arbiter :=
    (frame_handTx _ _ .arbiter (by decide)).trans (frame_meterInterval _ .arbiter (by decide))
  rw [strobed, paceTick_eq]
  simp only [before]

theorem hostTick_control (s : State) :
    (hostTick s).control =
      if s.control.mode = .managed then
        { s.control with
          hostLost := s.control.hostLost + 1
          hostLostDue := decide (s.control.policy.tHOST ≤ s.control.hostLost + 1) }
      else s.control := by
  unfold hostTick
  split <;> rfl

theorem intervalTick_control (s : State) :
    (intervalTick s).control =
      if s.control.mode = .managed then
        { s.control with
          hostLost := s.control.hostLost + 1
          hostLostDue := decide (s.control.policy.tHOST ≤ s.control.hostLost + 1) }
      else s.control := by
  rw [intervalTick_eq, hostTick_control, mapPorts_control,
    show (readOpt (strobed s)).control = s.control from
      (frame_readOpt _ .control (by decide)).trans (strobed_control s)]

theorem intervalTick_policy (s : State) : (intervalTick s).control.policy = s.control.policy := by
  rw [intervalTick_control]
  split <;> rfl

theorem clockTick_stamp (s : State) : (clockTick s).clock.stamp = s.clock.stamp + 1 := rfl

theorem clockTick_length (s : State) : (clockTick s).clock.length = some s.control.policy.tIVL := rfl

theorem meterInterval_takingStamp (s : State) :
    (meterInterval s).meter.takingStamp = some (s.clock.stamp.setWidth 8) := rfl

theorem exec_interval {s : State} (h : s.control.mode ≠ .start) :
    exec .intervalEvent s = .next (intervalTick (settleInterval s)) := by
  show execIntervalEvent s = _
  rw [execIntervalEvent, if_neg h]

/-- Settles O7: the clock moves on the state that is left when everything due has been taken. -/
theorem intervalEventMovesTheClock : Obligations.IntervalEventMovesTheClock := by
  refine ⟨fun s running => ?_, fun s start loaded unresponsive => ?_⟩
  · have stamp := settleInterval_stamp s
    have arbiter : (settleInterval s).arbiter = s.arbiter := frame_settleInterval s .arbiter (by decide)
    rw [exec_interval running]
    generalize settleInterval s = v at stamp arbiter
    have after := frame_afterStrobe v
    have clock : (intervalTick v).clock = (clockTick v).clock :=
      (after .clock (by decide)).trans (strobed_clock v)
    have glink : (intervalTick v).glink = (strobed v).glink := after .glink (by decide)
    have meter : (intervalTick v).meter = (meterInterval (clockTick v)).meter :=
      (after .meter (by decide)).trans (strobed_meter v)
    refine ⟨_, rfl, ?_, ?_, ?_, ?_, ?_⟩
    · rw [clock, clockTick_stamp, stamp]
    · rw [clock, intervalTick_policy, clockTick_length]
    · rw [meter, meterInterval_takingStamp, clockTick_stamp, stamp]
    · rw [glink, ← stamp]
      exact strobed_glink v
    · rw [show (intervalTick v).arbiter = (strobed v).arbiter from after .arbiter (by decide), strobed_arbiter,
        arbiter]
  · show execStartPacingAllowance s = _
    rw [execStartPacingAllowance, if_pos ⟨start, loaded, unresponsive⟩, paceTick_eq]

end Sys2Proof.Machine
end

section
/-! SUPPORT. An interval event on a state in which nothing of the last one is left (R21, R24, R39, R92, R96, R101, R104,
R148). -/

namespace Sys2Proof.Machine

/-! ### Nothing is due -/

theorem foldl_same {α : Type} {f : State → α → State} {s : State} (h : ∀ a, f s a = s) :
    ∀ l : List α, l.foldl f s = s
  | [] => rfl
  | a :: l => by rw [List.foldl_cons, h a]; exact foldl_same h l

theorem dueSlots_none {s : State}
    (h : ∀ i e, s.probe.opt.get i = some e → e.parityOk = true → e.phase ≠ .out s.clock.stamp) : dueSlots s = [] := by
  have none : ((List.finRange 32).filter fun i =>
      match s.probe.opt.get i with
      | some e => e.parityOk && decide (e.phase = .out s.clock.stamp)
      | none => false) = [] := by
    rw [List.filter_eq_nil_iff]
    intro i _
    split
    · next e entry =>
      rw [Bool.and_eq_true, decide_eq_true_eq]
      exact fun due => h i e entry due.1 due.2
    · exact Bool.false_ne_true
  have still : expiryOrder [] s = [] := by simp [expiryOrder]
  exact (congrArg (expiryOrder · s) none).trans still

theorem portEnds_same {p : Port} {s : State}
    (h : (s.port p).throttleDue = false ∧ (s.port p).holdDue = false ∧ (s.port p).decayDue = false) :
    portEnds p s = s := by
  obtain ⟨throttle, hold, decay⟩ := h
  have throttled : throttleEnds p s = s := by
    unfold throttleEnds
    dsimp only
    rw [modPort_same s p _ (by rw [← throttle]), if_neg (by rw [throttle]; exact fun h => Bool.false_ne_true h.1)]
  have held : holdEnds p s = s := by
    unfold holdEnds
    dsimp only
    rw [modPort_same s p _ (by rw [← hold]), if_neg (by rw [hold]; exact fun h => Bool.false_ne_true h.1)]
  have decayed : decayEnds p s = s := by
    unfold decayEnds
    rw [if_neg (by rw [decay]; decide)]
  rw [portEnds, throttled, held, decayed]

theorem strobesSent_same {s : State}
    (h : ∀ b, s.glink.sending ≠ some (.strobe b) ∧ s.glink.waiting ≠ some (.strobe b)) : strobesSent s = s := by
  unfold strobesSent
  split
  · next b sending => exact absurd sending (h b).1
  · split
    · next b waiting => exact absurd waiting (h b).2
    · rfl
  · split
    · next b waiting => exact absurd waiting (h b).2
    · rfl
  · rfl

theorem settleInterval_same {s : State} (h : NothingDue s) : settleInterval s = s := by
  have expired : expireDue s = s := by rw [expireDue, dueSlots_none h.expiry]; rfl
  have started : takeRound s = s := by rw [takeRound, if_neg (by rw [h.round]; decide)]
  have ended : allPorts.foldl (fun u p => portEnds p u) s = s := foldl_same (fun p => portEnds_same (h.ports p)) _
  have stays : hostLostEnds s = s := by
    rw [hostLostEnds, if_neg (by rw [h.host]; exact fun h => Bool.false_ne_true h.1)]
  unfold settleInterval
  dsimp only
  rw [expired, started, ended, stays, strobesSent_same h.strobe]

/-! ### What the event counts -/

/-- The record of a port after an interval event that finds no mark of the last one. -/
theorem tickRec_undue {n : Nat} {r : PortRec} (throttle : r.throttleDue = false) (hold : r.holdDue = false)
    (decay : r.decayDue = false) :
    tickRec n r =
      { r with
        hold := if r.guard = .blocked then r.hold - 1 else r.hold
        holdDue := decide (r.guard = .blocked ∧ r.hold = 1)
        throttleHold := if r.guard = .throttle then r.throttleHold - 1 else r.throttleHold
        throttleDue := decide (r.guard = .throttle ∧ r.throttleHold = 1)
        decay := if r.guard = .forward then r.decay + 1 else r.decay
        decayDue := decide (r.guard = .forward ∧ n ≤ r.decay + 1) } := by
  obtain ⟨role, present, linkUp, override, guard, strike, holdCount, listen, throttleHold, decayCount, lastF, avgE,
    creditB, trip, mark, wanted, confirmed, pendingFlag, inFlight, throttleDue, holdDue, decayDue⟩ := r
  cases throttle
  cases hold
  cases decay
  cases guard
  case blocked =>
    cases holdCount with
    | zero => simp [tickRec]
    | succ k => simp [tickRec]
  case throttle =>
    cases throttleHold with
    | zero => simp [tickRec]
    | succ k => simp [tickRec]
  all_goals simp [tickRec]

theorem meterInterval_port (s : State) (p : Port) :
    (meterInterval s).port p =
      { s.port p with mark := if (s.port p).metered then .awaited else .idle } := by
  have ports : (meterInterval s).ports =
      (s.mapPorts fun _ r => { r with mark := if r.metered then .awaited else .idle }).ports := rfl
  rw [port_congr ports, port_mapPorts]

theorem strobed_port (s : State) (p : Port) :
    (strobed s).port p = { s.port p with mark := if (s.port p).metered then .awaited else .idle } := by
  have ports : (strobed s).ports = (meterInterval (clockTick s)).ports :=
    (frame_paceTick _ .ports (by decide)).trans (frame_handTx _ _ .ports (by decide))
  rw [port_congr ports, meterInterval_port]
  rfl

theorem intervalTick_port {s : State} (sound : OptSound s) (p : Port) :
    (intervalTick s).port p =
      tickRec s.control.policy.tDECAY
        { s.port p with mark := if (s.port p).metered then .awaited else .idle } := by
  have probe : (strobed s).probe = s.probe :=
    (frame_paceTick _ .probe (by decide)).trans
      ((frame_handTx _ _ .probe (by decide)).trans (frame_meterInterval _ .probe (by decide)))
  have host (t : State) : (hostTick t).port p = t.port p := port_congr (frame_hostTick t .ports (by decide)) p
  rw [intervalTick_eq, host, port_mapPorts, readOpt_sound (sound.congr probe), strobed_port, strobed_control]

theorem meterInterval_missing (s : State) :
    (meterInterval s).meter.missing =
      min 65535 (s.meter.missing +
        (allPorts.filter fun p => (s.port p).metered && decide ((s.port p).mark = .awaited)).length) := rfl

theorem roundIsDue_iff (timer : Nat) (s : State) :
    roundIsDue timer (effectiveLength s) = true ↔
      ∃ n, s.clock.base = some n ∧ (if s.control.mode = .rest then min (10 * n) 2500 else n) ≤ timer := by
  unfold effectiveLength roundIsDue
  cases s.clock.base with
  | none => simp
  | some n => simp [Config.restRoundMax]

/-- With no entry that fails, an interval event touches no table and appends nothing. -/
theorem frame_intervalTick_sound {s : State} (sound : OptSound s) :
    OnlyChanges [.ports, .clock, .meter, .arbiter, .glink, .control] s (intervalTick s) := by
  have before : OnlyChanges [.ports, .clock, .meter, .arbiter, .glink, .control] s (strobed s) :=
    ((((frame_clockTick s).mono (by decide)).comp (frame_meterInterval _) (by decide)).comp (frame_handTx _ _)
      (by decide)).comp (frame_paceTick _) (by decide)
  have still : readOpt (strobed s) = strobed s := readOpt_sound (sound.congr (before .probe (by decide)))
  rw [intervalTick_eq, still]
  exact (before.comp (frame_mapPorts _ _) (by decide)).comp (frame_hostTick _) (by decide)

/-- Settles O8: nothing is due first, so the event counts on the state itself. -/
theorem intervalEventCounts : Obligations.IntervalEventCounts := by
  intro s running settled
  have after := frame_afterStrobe s
  have clock : (intervalTick s).clock = (clockTick s).clock := (after .clock (by decide)).trans (strobed_clock s)
  have meter : (intervalTick s).meter = (meterInterval (clockTick s)).meter :=
    (after .meter (by decide)).trans (strobed_meter s)
  refine ⟨intervalTick s, ?_, frame_intervalTick_sound settled.sound, fun p => ?_, ?_, ?_, ?_, ?_, ?_, ?_,
    intervalTick_control s⟩
  · rw [exec_interval running, settleInterval_same settled.toNothingDue]
  · obtain ⟨throttle, hold, decay⟩ := settled.ports p
    rw [intervalTick_port settled.sound]
    exact tickRec_undue (r := { s.port p with mark := if (s.port p).metered then .awaited else .idle }) throttle hold
      decay
  · rw [meter]; rfl
  · rw [meter, meterInterval_missing]; rfl
  · rw [clock]; rfl
  · rw [clock]
    exact roundIsDue_iff (s.clock.timer + 1) s
  · rw [clock]; rfl
  · rw [clock]; rfl

end Sys2Proof.Machine
end

section
/-! SUPPORT. The end of START (R19, R39, R144): what the last answer of the sweep leaves of the Mode Unit, and what the
first round leaves of an UPLINK port in LISTEN (R86). -/

namespace Sys2Proof.Machine

/-! ### A port in LISTEN through the events of other ports -/

theorem listening_not_freed {r : PortRec} (h : r.guard = .listen) : ¬ r.Freed := by
  rintro (g | ⟨g, -⟩) <;> rw [h] at g <;> cases g

theorem leaveListen_other {p q : Port} (s : State) (h : q ≠ p) : (leaveListen p s).port q = s.port q := by
  unfold leaveListen
  split
  · exact goThrottle_other _ s h
  · rw [goPlain_port, if_neg h]

theorem listenJudge_other {p q : Port} (clean : Bool) (s : State) (h : q ≠ p) :
    (listenJudge p clean s).port q = s.port q := by
  unfold listenJudge
  split
  · dsimp only
    split
    · rw [leaveListen_other _ h, port_modPort_ne _ _ h]
    · exact port_modPort_ne _ _ h
  · exact port_modPort_ne _ _ h

/-- The bookkeeping of another port leaves a port in LISTEN. -/
theorem listenBook_other {p q : Port} (quiet : Bool) {s : State} (h : q ≠ p) (listens : (s.port q).guard = .listen) :
    (listenBook p quiet s).port q = s.port q := by
  unfold listenBook
  split
  · dsimp only
    have judged : (listenJudge p (quiet && !(readLet s).involved p) (readLet s)).port q = s.port q := by
      rw [listenJudge_other _ _ h, port_congr (frame_readLet s .ports (by decide))]
    rw [(goneAtMost_settleSweep _).stays (by rw [judged]; exact listening_not_freed listens), judged]
  · rfl

/-- The expiry of a probe books no UPLINK port, for UPLINK ports are not probed (R2, R50, R86). -/
theorem expireSlot_uplink (i : Fin 32) {q : Port} {s : State} (uplink : (s.port q).role = .uplink)
    (listens : (s.port q).guard = .listen) : (expireSlot i s).port q = s.port q := by
  unfold expireSlot
  split
  · rfl
  · next e _ =>
    have cleared (t : State) : (clearOpt i t).port q = t.port q := port_congr rfl q
    dsimp only
    rw [cleared]
    have gone : (withdraw (fun l => decide (l.egress = e.egress) && !decide (l.ingress ∈ e.caught)) s).port q =
        s.port q := (goneAtMost_withdraw _ s).stays (listening_not_freed listens)
    generalize withdraw (fun l => decide (l.egress = e.egress) && !decide (l.ingress ∈ e.caught)) s = t at gone
    split
    · next probed =>
      have other : q ≠ e.egress := by
        intro same
        rw [← same, gone, uplink] at probed
        exact absurd probed (by decide)
      rw [listenBook_other _ other (by rw [gone]; exact listens), gone]
    · exact gone

theorem roundSteps_uplink {q : Port} {s : State} (uplink : (s.port q).role = .uplink)
    (listens : (s.port q).guard = .listen) : (roundSteps s).port q = s.port q := by
  have expired (l : List (Fin 32)) (t : State) (same : t.port q = s.port q) :
      (l.foldl (fun u i => expireSlot i u) t).port q = s.port q := by
    induction l generalizing t with
    | nil => exact same
    | cons i l ih =>
      refine ih _ ?_
      rw [expireSlot_uplink i (by rw [same]; exact uplink) (by rw [same]; exact listens), same]
  have dealt (r : Round) (t : State) (same : t.ports = s.ports) : (dealOld r t).port q = s.port q := by
    unfold dealOld
    refine expired _ _ ?_
    rw [port_congr (frame_eraseOpt _ _ .ports (by decide)), port_congr (frame_readOpt t .ports (by decide)),
      port_congr same]
  have listed (t : State) (u : ProbeUnit) : ({ t with probe := u } : State).port q = t.port q := port_congr rfl q
  unfold roundSteps
  dsimp only
  rw [listed]
  exact dealt _ _ rfl

/-! ### A port in LISTEN through the entry into AUTONOMOUS -/

/-- Role, guard state and listen count of a record are the same. -/
structure PortRec.ListenSame (r u : PortRec) : Prop where
  role : u.role = r.role
  guard : u.guard = r.guard
  listen : u.listen = r.listen

theorem PortRec.ListenSame.refl (r : PortRec) : r.ListenSame r := ⟨rfl, rfl, rfl⟩

theorem PortRec.ListenSame.trans {a b c : PortRec} (h : a.ListenSame b) (k : b.ListenSame c) : a.ListenSame c :=
  ⟨k.role.trans h.role, k.guard.trans h.guard, k.listen.trans h.listen⟩

theorem clearOverrides_listen (s : State) (q : Port) : (s.port q).ListenSame ((clearOverrides s).port q) := by
  let x : PortRec := { s.port q with override := .noOverride }
  obtain ⟨-, listen, -⟩ := deriveWanted_counts x
  rw [clearOverrides, port_mapPorts]
  exact ⟨(deriveWanted_kept x).role, deriveWanted_guard x, listen⟩

/-- A role change that leaves the role of a port in LISTEN leaves its guard record. -/
theorem roleChange_listen {table : Port → Role} {s : State} {q : Port} (unchanged : table q = (s.port q).role)
    (listens : (s.port q).guard = .listen) : (s.port q).ListenSame ((roleChange table s).port q) := by
  have same : ¬ Changed table s q := not_not.mpr unchanged
  have rule : ruledGuard (table q) (s.port q) = .listen := by
    rw [← afterRules_guard, afterRules_unchanged same, listens]
  have guard := roleChange_guard (table := table) (s := s) (p := q) (by rw [rule]; simp)
  rw [afterRules_unchanged same] at guard
  exact ⟨(roleChange_unchanged same).role, guard.guard, guard.listen⟩

theorem enterAutonomous_listen (c : ModeCause) {s : State} {q : Port} (listens : (s.port q).guard = .listen)
    (role : ((enterAutonomous c s).port q).role = (s.port q).role) :
    (s.port q).ListenSame ((enterAutonomous c s).port q) := by
  unfold enterAutonomous at role ⊢
  dsimp only at role ⊢
  have cleared := clearOverrides_listen (setMode .autonomous c s) q
  rw [setMode_port] at cleared
  generalize clearOverrides (setMode .autonomous c s) = t at cleared role ⊢
  have applied : (s.port q).ListenSame ((applyPolicy t.settings.readPolicy t).port q) := by
    rw [applyPolicy_port]
    exact cleared.trans ⟨rfl, rfl, rfl⟩
  generalize applyPolicy t.settings.readPolicy t = u at applied role ⊢
  rw [(roleChange_all _ u q).1] at role
  exact applied.trans (roleChange_listen (role.trans applied.role.symm) (applied.guard.trans listens))

/-! ### The Mode Unit at the end of START -/

theorem enterAutonomous_control (c : ModeCause) (s : State) :
    (enterAutonomous c s).control.mode = .autonomous ∧ (enterAutonomous c s).control.hostLost = 0 ∧
      (enterAutonomous c s).control.sweep = s.control.sweep := by
  have control (table : Port → Role) (q : Policy) :
      (roleChange table (applyPolicy q (clearOverrides (setMode .autonomous c s)))).control =
        { (setMode .autonomous c s).control with policy := q } := by
    have changed (t : State) : (roleChange table t).control = t.control := frame_roleChange table t .control (by decide)
    rw [changed, applyPolicy_control, clearOverrides, mapPorts_control]
  unfold enterAutonomous
  dsimp only
  rw [control, setMode, report_control]
  exact ⟨rfl, rfl, rfl⟩

/-- The state at the end of START once the boot mode has been entered (R144). -/
def booted (s : State) : State :=
  if s.control.policy.bootManaged then setMode .managed .startDone s else enterAutonomous .startDone s

theorem frame_booted (s : State) : OnlyChanges fallParts s (booted s) := by
  unfold booted
  split
  · exact (frame_setMode _ _ s).mono (by decide)
  · exact frame_enterAutonomous _ s

theorem booted_control (s : State) :
    (booted s).control.mode = (if s.control.policy.bootManaged then .managed else .autonomous) ∧
      (booted s).control.hostLost = 0 ∧ (booted s).control.sweep = s.control.sweep := by
  unfold booted
  split
  · rw [setMode, report_control]
    exact ⟨rfl, rfl, rfl⟩
  · exact enterAutonomous_control _ s

theorem booted_listen {s : State} {q : Port} (listens : (s.port q).guard = .listen)
    (role : ((booted s).port q).role = (s.port q).role) : (s.port q).ListenSame ((booted s).port q) := by
  unfold booted at role ⊢
  split at role
  · next managed => rw [if_pos managed, setMode_port]; exact PortRec.ListenSame.refl _
  · next autonomous => rw [if_neg autonomous]; exact enterAutonomous_listen _ listens role

/-- The state in which the opening STROBE has been handed to the transmitter (R144). -/
def opened (s : State) : State :=
  handTx (.strobe 0) { booted s with clock := { (booted s).clock with length := some (booted s).control.policy.tIVL } }

theorem startDone_eq (s : State) : startDone s = roundSteps (opened s) := rfl

theorem frame_opened (s : State) : OnlyChanges [.clock, .glink] (booted s) (opened s) :=
  OnlyChanges.comp (OnlyChanges.mono (frame_set_clock _ _) (by decide)) (frame_handTx _ _) (by decide)

theorem opened_clock (s : State) :
    (opened s).clock = { s.clock with length := some (booted s).control.policy.tIVL } := by
  have clock : (booted s).clock = s.clock := frame_booted s .clock (by decide)
  have handed (t : State) : (handTx (.strobe 0) t).clock = t.clock := frame_handTx _ t .clock (by decide)
  rw [opened, handed, clock]

/-! ### The last answer -/

theorem woken_in_start {k : WakeKind} {p : Port} {s : State} (start : s.control.mode = .start) :
    s.woken k p = s := by
  unfold State.woken
  rw [if_neg (by rw [start]; decide)]

theorem linkReport_control {p : Port} {up : Bool} {s : State} (start : s.control.mode = .start) :
    (linkReport p up s).control = s.control := by
  unfold linkReport
  split
  · split
    · rw [linkUpEvent_control, woken_in_start start]
    · exact frame_linkDownEvent p s .control (by decide)
  · rfl

/-- A link report leaves another port in LISTEN. -/
theorem linkReport_other {p q : Port} {up : Bool} {s : State} (h : q ≠ p) (listens : (s.port q).guard = .listen) :
    (linkReport p up s).port q = s.port q := by
  unfold linkReport
  split
  · split
    · rw [linkUpEvent_port, if_neg h]
    · have down : (portDown .down .linkDown p s).port q = s.port q := by rw [portDown_port, if_neg h]
      rw [linkDownEvent, linkDownTo_eq,
        (goneAtMost_portCleared p _).stays (by rw [down]; exact listening_not_freed listens), down]
  · rfl

/-- So does its absence. -/
theorem absence_listening {p q : Port} {s : State} (h : q ≠ p) (listens : (s.port q).guard = .listen) :
    (absence p s).port q = s.port q := by
  have absented : (s.modPort p PortRec.absented).port q = s.port q := port_modPort_ne s _ h
  rw [absence_eq]
  split
  · have down : (portDown .disabled .absent p (s.modPort p PortRec.absented)).port q = s.port q := by
      rw [portDown_port, if_neg h, absented]
    rw [linkDownTo_eq, (goneAtMost_portCleared p _).stays (by rw [down]; exact listening_not_freed listens), down]
  · split
    · exact absented
    · rw [goPlain_port, if_neg h, absented]

/-- The result of an ACK to a SETPORT: confirmation and link status, or absence (R4, R129 to R131). -/
def setportResult (p : Port) (ok up : Bool) (s : State) : State :=
  if ok then linkReport p up (setportConfirmed p s) else absence p s

theorem frame_setportResult (p : Port) (ok up : Bool) (s : State) :
    OnlyChanges [.ports, .evidence, .trap, .reports, .probe, .order, .control] s (setportResult p ok up s) := by
  unfold setportResult
  split
  · exact ((frame_setportConfirmed p s).mono (by decide)).comp (frame_linkReport _ _ _) (by decide)
  · exact (frame_absence p s).mono (by decide)

theorem setportResult_control {p : Port} {ok up : Bool} {s : State} (start : s.control.mode = .start) :
    (setportResult p ok up s).control = s.control := by
  have confirmed : (setportConfirmed p s).control = s.control := frame_setportConfirmed p s .control (by decide)
  unfold setportResult
  split
  · rw [linkReport_control (by rw [confirmed]; exact start), confirmed]
  · exact frame_absence p s .control (by decide)

theorem setportResult_other {p q : Port} {ok up : Bool} {s : State} (h : q ≠ p)
    (listens : (s.port q).guard = .listen) : (setportResult p ok up s).port q = s.port q := by
  have confirmed : (setportConfirmed p s).port q = s.port q := port_modPort_ne s _ h
  unfold setportResult
  split
  · rw [linkReport_other h (by rw [confirmed]; exact listens), confirmed]
  · exact absence_listening h listens

/-- An ACK that ends a SETPORT, on a link in either state. -/
theorem exec_ack_setport {s : State} {p previous : Port} (ok up : Bool) (loaded : s.control.loading = false)
    (outstanding : s.glink.outstanding = some ⟨.setport previous, p, true⟩) :
    ∃ t, OnlyChanges [.glink, .arbiter, .reports] s t ∧
      exec (.ack (portField p) ok up) s = .next (sweepAnswered p (setportResult p ok up t)) := by
  let r := linkReturns (portField p) .ack (recordDone s)
  have returned : OnlyChanges [.glink, .arbiter, .reports] s r :=
    ((frame_set_glink s _).mono (by decide)).comp (frame_linkReturns _ _ _) (by decide)
  have still : r.glink.outstanding = some ⟨.setport previous, p, true⟩ := by
    rw [← outstanding]
    show (linkReturns _ _ _).glink.outstanding = _
    unfold linkReturns
    split
    · dsimp only
      rw [report_glink]
      rfl
    · rfl
  refine ⟨endCommand (ackSeen r),
    (returned.comp (frame_ackSeen r) (by decide)).comp (frame_endCommand _) (by decide), ?_⟩
  show execAck _ _ _ s = _
  rw [execAck, inbound, if_neg (by rw [loaded]; decide)]
  show Host.Outcome.next (ackTaken (portField p) ok up r) = _
  unfold ackTaken
  simp only [still, and_self, if_true]
  rfl

/-- The last answer of the sweep ends START (R144). -/
theorem sweepAnswered_last {p : Port} {s : State} (start : s.control.mode = .start) (last : s.control.sweep = [p]) :
    sweepAnswered p s = startDone (leaveSweep p s) ∧ (leaveSweep p s).control.sweep = [] := by
  have empty : (leaveSweep p s).control.sweep = [] := by
    show s.control.sweep.filter _ = []
    rw [last]
    simp
  unfold sweepAnswered
  rw [if_pos ⟨start, by rw [last]; exact List.mem_singleton_self p⟩, if_pos empty]
  exact ⟨rfl, empty⟩

end Sys2Proof.Machine
end

section
/-! SUPPORT. The last answer of the sweep, as the statement names it (R19, R39, R86, R144). -/

namespace Sys2Proof.Machine

/-- The end of START after the last answer: Mode Unit, clock, transmitter and meter (R144). -/
theorem startDone_spec (s : State) :
    (startDone s).control.sweep = s.control.sweep ∧
      (startDone s).control.mode = (if s.control.policy.bootManaged then .managed else .autonomous) ∧
      (startDone s).control.hostLost = 0 ∧
      (startDone s).clock =
        { s.clock with
          length := some (startDone s).control.policy.tIVL
          timer := 0
          base := some (startDone s).control.policy.tRND
          round := some (nextRound s)
          roundDue := false } ∧
      ((startDone s).glink.sending = some (.strobe 0) ∨ (startDone s).glink.waiting = some (.strobe 0)) ∧
      (startDone s).meter = s.meter := by
  have rounds := frame_roundSteps (opened s)
  have handed := frame_opened s
  have control : (startDone s).control = (booted s).control :=
    (rounds .control (by decide)).trans (handed .control (by decide))
  obtain ⟨mode, hostLost, sweep⟩ := booted_control s
  have number : nextRound (opened s) = nextRound s := by
    unfold nextRound
    rw [opened_clock]
  rw [control]
  refine ⟨sweep, mode, hostLost, ?_, ?_, ?_⟩
  · rw [startDone_eq, roundSteps_clock, number, opened_clock,
      show (opened s).control = (booted s).control from handed .control (by decide)]
  · rw [startDone_eq, show (roundSteps (opened s)).glink = (opened s).glink from rounds .glink (by decide)]
    exact handTx_hands _ _
  · exact ((rounds .meter (by decide)).trans (handed .meter (by decide))).trans (frame_booted s .meter (by decide))

/-- An UPLINK port in LISTEN that keeps its role at the end of START stays as it is (R86). -/
theorem startDone_listen {s : State} {q : Port} (uplink : (s.port q).role = .uplink)
    (listens : (s.port q).guard = .listen) (after : ((startDone s).port q).role = .uplink) :
    (s.port q).ListenSame ((startDone s).port q) := by
  have handed : (opened s).port q = (booted s).port q := port_congr (frame_opened s .ports (by decide)) q
  have role : ((startDone s).port q).role = ((booted s).port q).role := by
    rw [startDone_eq, ((meterSame_roundSteps (opened s)).ports q).role, handed]
  have boot := booted_listen listens ((role.symm.trans after).trans uplink.symm)
  have still : (startDone s).port q = (booted s).port q := by
    rw [startDone_eq, roundSteps_uplink, handed]
    · rw [handed, ← role, after]
    · rw [handed, boot.guard, listens]
  rw [still]
  exact boot

/-- Settles O6: the last answer leaves the sweep empty, and START ends. -/
theorem lastAnswerEndsStart : Obligations.LastAnswerEndsStart := by
  intro s p previous ok up start loaded outstanding last
  obtain ⟨a, answered, run⟩ := exec_ack_setport ok up loaded outstanding
  have control : a.control = s.control := answered .control (by decide)
  have start' : a.control.mode = .start := by rw [control, start]
  have result := frame_setportResult p ok up a
  have same : (setportResult p ok up a).control = s.control := (setportResult_control start').trans control
  obtain ⟨done, empty⟩ := sweepAnswered_last (p := p) (s := setportResult p ok up a) (by rw [same, start])
    (by rw [same, last])
  let d := leaveSweep p (setportResult p ok up a)
  have left := frame_leaveSweep p (setportResult p ok up a)
  have policy : d.control.policy = s.control.policy := by
    show (setportResult p ok up a).control.policy = _
    rw [same]
  have clock : d.clock = s.clock :=
    ((left .clock (by decide)).trans (result .clock (by decide))).trans (answered .clock (by decide))
  have meter : d.meter = s.meter :=
    ((left .meter (by decide)).trans (result .meter (by decide))).trans (answered .meter (by decide))
  have number : nextRound d = nextRound s := by rw [nextRound, nextRound, clock]
  have port (q : Port) (hq : q ≠ p) (listens : (s.port q).guard = .listen) : d.port q = s.port q := by
    have before : a.port q = s.port q := port_congr (answered .ports (by decide)) q
    rw [port_congr (left .ports (by decide)), setportResult_other hq (by rw [before]; exact listens), before]
  obtain ⟨sweep, mode, hostLost, clock', sending, meter'⟩ := startDone_spec d
  refine ⟨startDone d, by rw [run, done], sweep.trans empty, mode.trans (by rw [policy]), hostLost, ?_⟩
  rw [clock']
  refine ⟨by rw [clock], rfl, rfl, rfl, ?_, sending, meter'.trans meter, fun q hq uplink after listens => ?_⟩
  · exact congrArg some number
  · have before := port q hq listens
    have kept := startDone_listen (s := d) (by rw [before]; exact uplink) (by rw [before]; exact listens) after
    rw [before] at kept
    exact ⟨kept.guard.trans listens, kept.listen⟩

end Sys2Proof.Machine
end

section
/-! SUPPORT. The frame of every command (ch. 95): what each request's owning block may change, the way of a record or a
request to its block, and the parts that `touches` lists. -/

namespace Sys2Proof.Machine

theorem OnlyChanges.ite {l : List Part} {c : Prop} [Decidable c] {s t : State} (h : OnlyChanges l s t) :
    OnlyChanges l s (if c then t else s) := by
  split
  · exact h
  · exact OnlyChanges.refl l s

/-! ### Requests -/

/-- The parts that the owning block of a request may change. -/
def RequestKind.parts (k : RequestKind) : List Part :=
  match k with
  | .stat => [.meter, .probe, .evidence, .glink, .mgmt]
  | .portq => []
  | .fetch | .ackgap | .watch | .extend | .unwatch => [.reports]
  | .trapclr => [.trap]
  | .mode | .roles => fallParts
  | .setp => [.ports, .control]
  | .ovrd | .lesson => [.ports]
  | .store => [.settings]
  | .reset => [.mgmt]

theorem frame_modeTo (m : Mode) (s : State) : OnlyChanges fallParts s (modeTo m s).state := by
  have mode (m : Mode) : OnlyChanges fallParts s (setMode m .request s) := (frame_setMode m _ s).mono (by decide)
  unfold modeTo
  split
  · exact OnlyChanges.refl _ s
  · cases m with
    | autonomous => exact frame_enterAutonomous _ s
    | managed => exact mode .managed
    | rest =>
      dsimp only
      split
      · exact mode .rest
      · exact OnlyChanges.refl _ s
    | start => exact OnlyChanges.refl _ s

theorem frame_doLesson (fields : List Byte) (s : State) : OnlyChanges [.ports] s (doLesson fields s).state := by
  have refill : OnlyChanges [.ports] s (lessonRefill s) := by
    unfold lessonRefill
    with_reducible exact frame_mapPorts _ s
  unfold doLesson
  split
  · exact refill
  · exact OnlyChanges.refl _ s

theorem frame_doRoles (fields : List Byte) (s : State) : OnlyChanges fallParts s (doRoles fields s).state := by
  unfold doRoles
  split
  · exact OnlyChanges.refl _ s
  · split
    · exact OnlyChanges.refl _ s
    · split
      · unfold rolesCodes
        split
        · exact OnlyChanges.refl _ s
        · exact (frame_roleChange _ s).mono (by decide)
      · exact OnlyChanges.refl _ s

theorem frame_doSetp (fields : List Byte) (s : State) : OnlyChanges [.ports, .control] s (doSetp fields s).state := by
  unfold doSetp
  split
  · unfold setpPairs
    exact frame_applyPolicy _ s
  · exact OnlyChanges.refl _ s

theorem frame_doOvrd (fields : List Byte) (s : State) : OnlyChanges [.ports] s (doOvrd fields s).state := by
  unfold doOvrd
  split
  · split
    · unfold ovrdPort
      split
      · exact OnlyChanges.refl _ s
      · exact frame_modPort _ _ s
    · exact OnlyChanges.refl _ s
  · exact OnlyChanges.refl _ s

/-- The watch requests change the Report Unit only. -/
theorem frame_watchRequests (fields : List Byte) (s : State) :
    OnlyChanges [.reports] s (doWatch fields s).state ∧ OnlyChanges [.reports] s (doExtend fields s).state ∧
      OnlyChanges [.reports] s (doUnwatch fields s).state := by
  refine ⟨?_, ?_, ?_⟩
  · unfold doWatch
    split
    · split
      · exact OnlyChanges.refl _ s
      · split
        · exact OnlyChanges.refl _ s
        · exact frame_set_reports s _
    · exact OnlyChanges.refl _ s
  · unfold doExtend
    split
    · split
      · exact OnlyChanges.refl _ s
      · split
        · exact OnlyChanges.refl _ s
        · exact frame_set_reports s _
    · exact OnlyChanges.refl _ s
  · unfold doUnwatch
    split
    · split
      · exact OnlyChanges.refl _ s
      · exact (frame_report _ s).comp (frame_set_reports _ _) (by decide)
    · exact OnlyChanges.refl _ s

/-- What the owning block of a request changes. -/
theorem frame_requestAct (k : RequestKind) (fields : List Byte) (s : State) :
    OnlyChanges k.parts s (k.act fields s).state := by
  obtain ⟨watch, extend, unwatch⟩ := frame_watchRequests fields s
  cases k with
  | stat =>
    show OnlyChanges _ s (doStat fields s).state
    unfold doStat
    split
    · exact OnlyChanges.refl _ s
    · split
      · exact OnlyChanges.refl _ s
      · split
        · exact frame_clearCounts s
        · exact OnlyChanges.refl _ s
    · exact OnlyChanges.refl _ s
  | portq =>
    show OnlyChanges _ s (doPortq fields s).state
    unfold doPortq
    split
    · split <;> exact OnlyChanges.refl _ s
    · exact OnlyChanges.refl _ s
  | fetch =>
    show OnlyChanges _ s (doFetch fields s).state
    unfold doFetch
    split
    · exact frame_fetchState _ s
    · exact OnlyChanges.refl _ s
  | ackgap =>
    show OnlyChanges _ s (doAckgap fields s).state
    unfold doAckgap
    split
    · exact frame_acknowledge s
    · exact OnlyChanges.refl _ s
  | trapclr =>
    show OnlyChanges _ s (doTrapclr fields s).state
    unfold doTrapclr
    split
    · exact frame_set_trap s none
    · exact OnlyChanges.refl _ s
  | mode =>
    show OnlyChanges _ s (doMode fields s).state
    unfold doMode
    split
    · split
      · exact frame_modeTo _ s
      · exact OnlyChanges.refl _ s
    · exact OnlyChanges.refl _ s
  | setp => exact frame_doSetp fields s
  | roles => exact frame_doRoles fields s
  | ovrd => exact frame_doOvrd fields s
  | lesson => exact frame_doLesson fields s
  | store =>
    show OnlyChanges _ s (doStore fields s).state
    unfold doStore
    split
    · split
      · unfold storeArea
        split
        · exact OnlyChanges.refl _ s
        · split
          · exact OnlyChanges.refl _ s
          · exact frame_startWrite _ s
      · exact OnlyChanges.refl _ s
    · exact OnlyChanges.refl _ s
  | watch => exact watch
  | extend => exact extend
  | unwatch => exact unwatch
  | reset =>
    show OnlyChanges _ s (doReset fields s).state
    unfold doReset
    split
    · exact frame_set_mgmt s _
    · exact OnlyChanges.refl _ s

theorem frame_ifServed (k : RequestKind) (fields : List Byte) (s : State) :
    OnlyChanges k.parts s (ifServed k (k.act fields) s).state := by
  unfold ifServed
  split
  · exact frame_requestAct k fields s
  · exact OnlyChanges.refl _ s

theorem frame_sendReply (kind : Byte) (a : Answer) : OnlyChanges [.mgmt] a.state (sendReply kind a) :=
  frame_set_mgmt a.state _

/-- A request frame changes the line, what the fall to AUTONOMOUS before it changes, and what its block changes. -/
theorem frame_request {l : List Part} (kind : Byte) (fields : List Byte) {act : State → Answer}
    (acts : ∀ t, OnlyChanges l t (act t).state) (s : State) :
    OnlyChanges (.mgmt :: (fallParts ++ l)) s (request kind fields act s) := by
  have sub (a : Part) (h : a ∈ [.mgmt, .ports, .evidence, .trap, .reports, .probe, .control]) :
      a ∈ .mgmt :: (fallParts ++ l) := by
    have listed : a ∈ .mgmt :: fallParts := by revert a; decide
    rcases List.mem_cons.mp listed with h | h
    · exact h ▸ List.mem_cons_self
    · exact List.mem_cons_of_mem _ (List.mem_append_left l h)
  unfold request
  split
  · split
    · refine OnlyChanges.comp ?_ (frame_sendReply _ _) (by simp)
      exact ((frame_takeFrame _ s).mono sub).comp (acts _)
        fun a h => List.mem_cons_of_mem _ (List.mem_append_right _ h)
    · exact (frame_frameBusy kind s).mono (by simp)
  · exact OnlyChanges.refl _ s

/-- The frame of a request command that samples no KEY. -/
theorem frame_requestCommand (k : RequestKind) (kind : Byte) (fields : List Byte)
    (sub : ∀ a ∈ k.parts, a ∈ Part.mgmt :: fallParts) (s : State) :
    OnlyChanges (.mgmt :: fallParts) s (request kind fields (ifServed k (k.act fields)) s) := by
  refine (frame_request kind fields (frame_ifServed k fields) s).mono fun a h => ?_
  rcases List.mem_cons.mp h with h | h
  · exact h ▸ List.mem_cons_self
  · exact (List.mem_append.mp h).elim (List.mem_cons_of_mem _) (sub a)

/-- The frame of a request command that samples KEY. -/
theorem frame_keyedCommand (l : List Part) (k : RequestKind) (kind : Byte) (fields : List Byte) (key : Bool)
    (sub : ∀ a ∈ [Part.settings, .reports, .key] ++ Part.mgmt :: (fallParts ++ k.parts), a ∈ l) (s : State) :
    OnlyChanges l s (request kind fields (ifServed k (k.act fields)) (sampleKey key s)) :=
  ((frame_sampleKey key s).mono fun a h => sub a (List.mem_append_left _ h)).comp
    (frame_request kind fields (frame_ifServed k fields) _) fun a h => sub a (List.mem_append_right _ h)

/-- The parts a request carried by characters may change. -/
def servedParts : List Part :=
  [.ports, .evidence, .trap, .reports, .probe, .control, .mgmt, .settings, .meter, .glink]

theorem frame_serve (body : List Byte) (s : State) : OnlyChanges servedParts s (serve body s) := by
  have taken : OnlyChanges servedParts s (takeFrame body s) := (frame_takeFrame body s).mono (by decide)
  unfold serve
  split
  · exact OnlyChanges.refl _ s
  · refine OnlyChanges.comp ?_ (frame_sendReply _ _) (by decide)
    unfold answerTo
    split
    · next k _ => exact taken.comp (frame_ifServed k _ _) (by cases k <;> decide)
    · exact taken

theorem frame_judgeComplete (s : State) : OnlyChanges servedParts s (judgeComplete s) := by
  unfold judgeComplete
  split
  · exact OnlyChanges.refl _ s
  · unfold judgeFrame
    split
    · exact ((frame_set_mgmt s _).mono (by decide)).comp (frame_frameCheckFails _) (by decide)
    · split
      · exact ((frame_set_mgmt s _).mono (by decide)).comp (frame_serve _ _) (by decide)
      · exact ((frame_set_mgmt s _).mono (by decide)).comp (frame_frameBusy _ _) (by decide)

/-! ### Inbound records -/

/-- A valid record changes the link, what its return to UP changes, and what its block changes. -/
theorem frame_inbound {l : List Part} (k : InboundKind) (f : PortField) {act : State → State}
    (acts : ∀ t, OnlyChanges l t (act t)) (s : State) :
    OnlyChanges (.glink :: .arbiter :: .reports :: l) s (inbound k f act s) := by
  have done : OnlyChanges (.glink :: .arbiter :: .reports :: l) s (recordDone s) :=
    (frame_set_glink s _).mono (by simp)
  unfold inbound
  split
  · exact done
  · exact (done.comp (frame_linkReturns f k _) (by simp)).comp (acts _) (by simp +contextual)

/-- The same for a record with a port field, which may name no port. -/
theorem frame_record {l : List Part} (k : InboundKind) (f : PortField) {act : Port → State → State}
    (acts : ∀ p t, OnlyChanges l t (act p t)) (s : State) :
    OnlyChanges (.glink :: .arbiter :: .reports :: .glink :: l) s
      (inbound k f (fun t => match portOf f with | some p => act p t | none => badPort t) s) := by
  refine frame_inbound k f (fun t => ?_) s
  split
  · exact (acts _ t).mono (by simp +contextual)
  · exact (frame_set_glink t _).mono (by simp)

/-- The parts that the answer to a command may change. -/
def answerParts : List Part :=
  [.ports, .evidence, .trap, .reports, .probe, .control, .order, .glink, .arbiter, .clock]

theorem frame_sweepAnswered (p : Port) (s : State) : OnlyChanges answerParts s (sweepAnswered p s) := by
  have left : OnlyChanges answerParts s (leaveSweep p s) := (frame_leaveSweep p s).mono (by decide)
  unfold sweepAnswered
  split
  · split
    · exact left.comp (frame_startDone _) (by decide)
    · exact left
  · exact OnlyChanges.refl _ s

theorem frame_ackEnds (o : Outstanding) (ok up : Bool) (s : State) : OnlyChanges answerParts s (ackEnds o ok up s) := by
  unfold ackEnds
  split
  · refine OnlyChanges.comp ?_ (frame_sweepAnswered _ _) (by decide)
    split
    · exact ((frame_setportConfirmed _ s).mono (by decide)).comp (frame_linkReport _ _ _) (by decide)
    · exact (frame_absence _ s).mono (by decide)
  · refine OnlyChanges.comp ?_ (frame_linkReport _ _ _) (by decide)
    split
    · exact (frame_probeAcked _ _ s).mono (by decide)
    · exact (frame_probeEnded _ _ s).mono (by decide)

theorem frame_ackTaken (f : PortField) (ok up : Bool) (s : State) : OnlyChanges answerParts s (ackTaken f ok up s) := by
  have seen : OnlyChanges answerParts s (ackSeen s) := (frame_ackSeen s).mono (by decide)
  have stray : OnlyChanges answerParts s (strayAck (ackSeen s)) := seen.comp (frame_set_glink _ _) (by decide)
  unfold ackTaken
  split
  · exact stray
  · split
    · exact (seen.comp (frame_endCommand _) (by decide)).comp (frame_ackEnds _ _ _ _) (fun _ h => h)
    · exact stray

/-! ### Commands -/

/-- Every command answers a next state, and changes the parts that `touches` lists at most. -/
theorem exec_frame (c : Instr) (s : State) : ∃ t, exec c s = .next t ∧ OnlyChanges (touches c) s t := by
  cases c
  case powerReset baud => exact ⟨_, rfl, frame_resetTo _ _ s⟩
  case pinReset baud => exact ⟨_, rfl, frame_resetTo _ _ s⟩
  case settingsStoreLoad => exact ⟨_, rfl, (frame_loadDone s).ite⟩
  case startPacingAllowance => exact ⟨_, rfl, (frame_paceTick s).ite⟩
  case intervalEvent =>
    refine ⟨_, rfl, ?_⟩
    split
    · exact OnlyChanges.refl _ s
    · exact ((frame_settleInterval s).mono (by decide)).comp (frame_intervalTick _) (by decide)
  case roundStart =>
    exact ⟨_, rfl, OnlyChanges.ite (((frame_expireDue s).mono (by decide)).comp (frame_takeRound _) (by decide))⟩
  case probeExpiry =>
    refine ⟨_, rfl, ?_⟩
    split
    · exact OnlyChanges.refl _ s
    · exact frame_expireSlot _ s
  case throttleHoldExpiry p =>
    exact ⟨_, rfl, OnlyChanges.ite ((frame_lowerPortsEnd p s).comp (frame_throttleEnds p _) fun _ h => h)⟩
  case holdExpiry p =>
    exact ⟨_, rfl, OnlyChanges.ite ((frame_lowerPortsEnd p s).comp (frame_holdEnds p _) fun _ h => h)⟩
  case strikeDecay p => exact ⟨_, rfl, frame_decayEnds p s⟩
  case hostLost => exact ⟨_, rfl, frame_hostLostEnds s⟩
  case digest f stamp n =>
    exact ⟨_, rfl, (frame_record .digest f (fun p t => frame_digestAtMeter p stamp n.toNat t) s).mono
      (l := [.ports, .evidence, .trap, .reports, .control, .meter, .glink, .arbiter]) (by decide)⟩
  case catchRecord y x r d =>
    exact ⟨_, rfl, (frame_inbound .catchRecord y (frame_catchAtProbe y x r d) s).mono
      (l := [.ports, .evidence, .trap, .reports, .control, .probe, .glink, .arbiter]) (by decide)⟩
  case link f up =>
    exact ⟨_, rfl, (frame_record .link f (fun p t => frame_linkReport p up t) s).mono (l := linkParts) (by decide)⟩
  case ack f ok up =>
    exact ⟨_, rfl, (frame_inbound .ack f (frame_ackTaken f ok up) s).mono (l := answerParts) (by decide)⟩
  case framingError bits => exact ⟨_, rfl, OnlyChanges.ite (frame_set_glink s _)⟩
  case unknownRecord w => exact ⟨_, rfl, OnlyChanges.ite (frame_set_glink s _)⟩
  case ackTimeout =>
    refine ⟨_, rfl, ?_⟩
    split
    · exact OnlyChanges.ite ((frame_commandTimeout _ s).mono (by decide))
    · exact OnlyChanges.refl _ s
  case setport =>
    refine ⟨_, rfl, ?_⟩
    split
    · exact frame_grantSetport _ s
    · exact OnlyChanges.refl _ s
    · exact OnlyChanges.refl _ s
  case inject =>
    refine ⟨_, rfl, ?_⟩
    split
    · exact frame_grantProbe _ s
    · exact OnlyChanges.refl _ s
    · exact OnlyChanges.refl _ s
  case commandLastBit =>
    refine ⟨_, rfl, ?_⟩
    split
    · exact frame_commandSent s
    · exact frame_commandSent s
    · exact OnlyChanges.refl _ s
    · exact OnlyChanges.refl _ s
  case strobeLastBit =>
    refine ⟨_, rfl, ?_⟩
    split
    · exact frame_strobeSent s
    · exact OnlyChanges.refl _ s
    · exact OnlyChanges.refl _ s
    · exact OnlyChanges.refl _ s
  case character b stop =>
    have received : OnlyChanges (.key :: servedParts) s
        (receiveChar b stop.framingFault (sampleKey stop.key s)) :=
      ((frame_sampleKey _ s).mono (by decide)).comp (frame_receiveChar _ _ _) (by decide)
    exact ⟨_, rfl, (received.comp (frame_judgeComplete _) (by decide)).mono
      (l := [.ports, .evidence, .trap, .reports, .probe, .control, .mgmt, .key, .settings, .meter, .glink])
      (by decide)⟩
  case gapTimeout =>
    refine ⟨_, rfl, ?_⟩
    split
    · exact OnlyChanges.refl _ s
    · exact frame_frameTruncated s
  case checkFail body check => exact ⟨_, rfl, OnlyChanges.ite (frame_frameCheckFails s)⟩
  case rejectBusy kind fields => exact ⟨_, rfl, OnlyChanges.ite (frame_frameBusy kind s)⟩
  case replyEnd baud =>
    refine ⟨_, rfl, ?_⟩
    split
    · split
      · exact frame_resetTo _ _ s
      · exact (frame_replyEnds s).mono (List.forall_mem_singleton.mpr (by simp [touches]))
    · exact OnlyChanges.refl _ s
  case unknown kind fields =>
    refine ⟨_, rfl, ?_⟩
    split
    · exact OnlyChanges.refl _ s
    · exact (frame_request (l := []) _ _ (fun t => OnlyChanges.refl _ t) s).mono (l := .mgmt :: fallParts) (by decide)
  case stat key fields =>
    exact ⟨_, rfl, frame_keyedCommand
      [.ports, .evidence, .trap, .reports, .probe, .control, .mgmt, .key, .settings, .meter, .glink] .stat _ fields key
      (by decide) s⟩
  case roles key fields =>
    exact ⟨_, rfl, frame_keyedCommand [.ports, .evidence, .trap, .reports, .probe, .control, .mgmt, .key, .settings]
      .roles _ fields key (by decide) s⟩
  case store key fields =>
    exact ⟨_, rfl, frame_keyedCommand [.ports, .evidence, .trap, .reports, .probe, .control, .mgmt, .key, .settings]
      .store _ fields key (by decide) s⟩
  case portq fields => exact ⟨_, rfl, frame_requestCommand .portq _ fields (by decide) s⟩
  case fetch fields => exact ⟨_, rfl, frame_requestCommand .fetch _ fields (by decide) s⟩
  case ackgap fields => exact ⟨_, rfl, frame_requestCommand .ackgap _ fields (by decide) s⟩
  case trapclr fields => exact ⟨_, rfl, frame_requestCommand .trapclr _ fields (by decide) s⟩
  case mode fields => exact ⟨_, rfl, frame_requestCommand .mode _ fields (by decide) s⟩
  case lesson fields => exact ⟨_, rfl, frame_requestCommand .lesson _ fields (by decide) s⟩
  case reset fields => exact ⟨_, rfl, frame_requestCommand .reset _ fields (by decide) s⟩
  case setp fields => exact ⟨_, rfl, frame_requestCommand .setp _ fields (by decide) s⟩
  case ovrd fields => exact ⟨_, rfl, frame_requestCommand .ovrd _ fields (by decide) s⟩
  case watch fields => exact ⟨_, rfl, frame_requestCommand .watch _ fields (by decide) s⟩
  case extend fields => exact ⟨_, rfl, frame_requestCommand .extend _ fields (by decide) s⟩
  case unwatch fields => exact ⟨_, rfl, frame_requestCommand .unwatch _ fields (by decide) s⟩
  case writeCompletion took => exact ⟨_, rfl, frame_writeEnds took s⟩
  case keyFall => exact ⟨_, rfl, frame_keyFalls s⟩

/-- No command lists the queue or the guard identity. -/
theorem touches_spares (c : Instr) : Part.pending ∉ touches c ∧ Part.identity ∉ touches c := by
  cases c <;> simp [touches, guardParts, fallParts, intervalParts, linkParts]

/-- Settles O2: each command's frame is made of the frames of the operations it takes. -/
theorem everyCommandKeepsItsFrame : Obligations.EveryCommandKeepsItsFrame := by
  intro c s
  obtain ⟨t, run, frame⟩ := exec_frame c s
  obtain ⟨pending, identity⟩ := touches_spares c
  exact ⟨t, run, frame, frame .pending pending, frame .identity identity⟩

end Sys2Proof.Machine
end

section
/-! SUPPORT. A grant of the probe class (R44, R128), and a command that its ACK timer ends (R46, R114, R132 to R134). -/

namespace Sys2Proof.Machine

/-! ### The lowest free slot -/

/-- A search of the slots in ascending order finds the lowest that meets the condition. -/
theorem find_lowest {n : Nat} {c : Fin n → Bool} {i : Fin n} (here : c i = true) (below : ∀ j, j < i → c j = false) :
    (List.finRange n).find? c = some i := by
  refine List.find?_eq_some_iff_getElem.mpr ⟨here, i.val, by simp, by simp, fun j hj => ?_⟩
  simpa using below ⟨j, hj.trans i.isLt⟩ hj

theorem freeOpt_lowest {s : State} {i : Fin 32} (free : s.probe.opt.get i = none)
    (below : ∀ j, j < i → (s.probe.opt.get j).isSome = true) : freeOpt s = some i :=
  find_lowest (by rw [free]; rfl) fun j hj => by simpa using below j hj

theorem freeOpt_none {s : State} (full : ∀ i, (s.probe.opt.get i).isSome = true) : freeOpt s = none :=
  List.find?_eq_none.mpr fun i _ => by simp [Option.isSome_iff_ne_none.mp (full i)]

/-! ### The grant -/

/-- The probe class is granted for the head of the pending probe list. -/
theorem nextGrant_probe {s : State} {p : Port} (h : nextGrant s = some (.probe p)) :
    s.probe.list = p :: s.probe.list.tail := by
  unfold nextGrant at h
  split at h
  · split at h
    · cases h
    · next head => cases h; rw [head, List.tail_cons]
    · cases h
    · cases h
  · cases h

theorem exec_inject {s : State} {p : Port} (h : nextGrant s = some (.probe p)) :
    exec .inject s = .next (grantProbe p s) := by
  show execInject s = _
  simp only [execInject, h]

/-- A sent command takes the allowance while pacing is on. -/
theorem useAllowance_eq (a : Arbiter) :
    useAllowance a = { a with allowance := if a.pacing then false else a.allowance } := by
  unfold useAllowance
  split <;> rfl

/-- A record handed over is sent at once, or waits behind the record being sent. -/
theorem handTx_eq (r : OutRecord) (s : State) :
    handTx r s =
      { s with
        glink :=
          { s.glink with
            sending := s.glink.sending.orElse fun _ => some r
            waiting := if s.glink.sending.isSome then some r else s.glink.waiting } } := by
  unfold handTx
  split
  · next idle => simp [idle]
  · next a busy =>
    have sent : (s.glink.sending.orElse fun _ => some r) = s.glink.sending := by rw [busy]; rfl
    rw [sent, if_pos (by rw [busy]; rfl)]

/-- Settles O30: the head of the list is granted the lowest free slot, or none. -/
theorem injectGrant : Obligations.InjectGrant := by
  intro s p grant
  refine ⟨nextGrant_probe grant, fun full => ?_, fun i free below => ?_⟩
  · rw [exec_inject grant, grantProbe]
    simp only [freeOpt_none (s := { s with probe := { s.probe with list := s.probe.list.tail } }) full]
    rfl
  · rw [exec_inject grant, grantProbe]
    simp only [freeOpt_lowest (s := { s with probe := { s.probe with list := s.probe.list.tail } }) free below,
      handTx_eq, useAllowance_eq]
    rfl

/-! ### A timeout -/

theorem exec_timeout {s : State} {o : Outstanding} (outstanding : s.glink.outstanding = some o)
    (running : o.timerRunning = true) : exec .ackTimeout s = .next (commandTimeout o s) := by
  show execAckTimeout s = _
  simp only [execAckTimeout, outstanding, running, if_true]

/-- The state in which a timeout finds the arbiter: the command is no longer outstanding, and the timeout is counted at
the link. -/
def timedOut (s : State) : State :=
  { s with glink := { s.glink with outstanding := none, ackTimeouts := satInc s.glink.ackTimeouts } }

/-- A timed-out command, before the timeout is counted (R46, R132). -/
def commandEnded (o : Outstanding) (s : State) : State :=
  match o.kind with
  | .setport previous => setportTimedOut o.port previous (timedOut s)
  | .inject r => probeEnded r o.port (timedOut s)

theorem commandTimeout_eq (o : Outstanding) (s : State) :
    commandTimeout o s = judgeLink o.port o.kind.command (countTimeout (commandEnded o s)) := rfl

theorem commandEnded_glink (o : Outstanding) (s : State) : (commandEnded o s).glink = (timedOut s).glink := by
  unfold commandEnded
  split
  · exact frame_setportTimedOut _ _ _ .glink (by decide)
  · exact frame_probeEnded _ _ _ .glink (by decide)

theorem commandEnded_faultRun (o : Outstanding) (s : State) :
    (commandEnded o s).arbiter.faultRun = s.arbiter.faultRun := by
  unfold commandEnded
  split
  · rfl
  · exact congrArg Arbiter.faultRun (frame_probeEnded _ _ _ .arbiter (by decide))

/-- A timeout leaves the link state, unless it is the third of a run on a link that is UP (R116, R133). -/
theorem commandTimeout_short {s : State} (o : Outstanding)
    (short : s.glink.state = .unresponsive ∨ s.arbiter.faultRun + 1 < 3) :
    commandTimeout o s = countTimeout (commandEnded o s) := by
  rw [commandTimeout_eq, judgeLink, if_neg]
  rintro ⟨up, run⟩
  have state : (commandEnded o s).glink.state = .up := up
  have third : min 3 ((commandEnded o s).arbiter.faultRun + 1) = 3 := run
  rw [commandEnded_glink] at state
  rw [commandEnded_faultRun] at third
  rcases short with down | short
  · exact absurd (down.symm.trans state) (by decide)
  · omega

/-- The third timeout of a run on a link that is UP makes it UNRESPONSIVE. -/
theorem commandTimeout_third {s : State} (o : Outstanding) (up : s.glink.state = .up) (run : s.arbiter.faultRun = 2) :
    commandTimeout o s = linkFails o.port o.kind.command (countTimeout (commandEnded o s)) := by
  have third : (countTimeout (commandEnded o s)).arbiter.faultRun = 3 := by
    show min 3 ((commandEnded o s).arbiter.faultRun + 1) = 3
    rw [commandEnded_faultRun, run]
    rfl
  have state : (countTimeout (commandEnded o s)).glink.state = .up := by
    show (commandEnded o s).glink.state = .up
    rw [commandEnded_glink]
    exact up
  rw [commandTimeout_eq, judgeLink, if_pos ⟨state, third⟩]

/-- A timed-out SETPORT leaves its port's confirmed state UNKNOWN, which is pending when the port is present. -/
theorem setportTimedOut_eq (p previous : Port) (s : State) :
    setportTimedOut p previous s =
      { s.setPort p { s.port p with confirmed := none, inFlight := none, pendingFlag := (s.port p).present } with
        arbiter := { s.arbiter with pointer := previous } } := by
  unfold setportTimedOut State.modPort PortRec.recompute pendingOf
  simp only [ne_eq, reduceCtorEq, not_false_eq_true, decide_true, Bool.and_true]
  rfl

theorem setportTimedOut_port (p previous q : Port) (s : State) :
    (setportTimedOut p previous s).port q =
      if q = p then { s.port p with confirmed := none, inFlight := none, pendingFlag := (s.port p).present }
      else s.port q := by
  rw [setportTimedOut_eq, ← port_setPort]
  exact port_congr rfl q

/-- An INJECT that ends without an ACK OK frees the one slot of its probe, which counts as skipped (R46). -/
theorem probeEnded_entry {s : State} {r : Round} {x : Port} {i : Fin 32} {e : OptEntry} (sound : OptSound s)
    (entry : s.probe.opt.get i = some e) (round : e.round = r) (egress : e.egress = x)
    (one : ∀ j f, s.probe.opt.get j = some f → f.round = r → f.egress = x → j = i) :
    probeEnded r x s = skipProbe (clearOpt i s) := by
  unfold probeEnded
  simp only [readOpt_sound sound, findOpt_unique entry round egress one]

/-- Settles O32: short of the third of a run, the command ends and the timeout is counted. -/
theorem timeoutEndsTheCommand : Obligations.TimeoutEndsTheCommand := by
  intro s p short counted
  refine ⟨fun previous outstanding => ?_, fun r i e outstanding sound entry round egress one => ?_⟩
  · have ended : commandEnded ⟨.setport previous, p, true⟩ s = setportTimedOut p previous (timedOut s) := rfl
    rw [exec_timeout outstanding rfl, commandTimeout_short _ short, ended, setportTimedOut_eq]
    rfl
  · have ended : commandEnded ⟨.inject r, p, true⟩ s = probeEnded r p (timedOut s) := rfl
    rw [exec_timeout outstanding rfl, commandTimeout_short _ short, ended,
      probeEnded_entry (s := timedOut s) sound entry round egress one]
    rfl

/-- Where every OPT entry is sound, the end of a command is told to no one. -/
theorem frame_commandEnded {s : State} (o : Outstanding) (sound : OptSound s) :
    OnlyChanges [.ports, .probe, .arbiter, .glink] s (commandEnded o s) := by
  have timed : OnlyChanges [.ports, .probe, .arbiter, .glink] s (timedOut s) :=
    (frame_set_glink s _).mono (by decide)
  have read : readOpt (timedOut s) = timedOut s := readOpt_sound (s := timedOut s) sound
  unfold commandEnded
  split
  · exact timed.comp (frame_setportTimedOut _ _ _) (by decide)
  · unfold probeEnded
    dsimp only
    rw [read]
    split
    · exact timed
    · exact (timed.comp (frame_clearOpt _ _) (by decide)).comp (frame_skipProbe _) (by decide)

/-- The end of a command leaves guard state and wanted state of every port. -/
theorem commandEnded_port (o : Outstanding) (s : State) (q : Port) :
    ((commandEnded o s).port q).guard = (s.port q).guard ∧ ((commandEnded o s).port q).wanted = (s.port q).wanted := by
  have timed : (timedOut s).port q = s.port q := port_congr rfl q
  unfold commandEnded
  split
  · next previous _ =>
    rw [setportTimedOut_port, timed]
    split
    · next same => rw [same]; exact ⟨rfl, rfl⟩
    · exact ⟨rfl, rfl⟩
  · rw [port_congr (frame_probeEnded _ _ _ .ports (by decide)), timed]
    exact ⟨rfl, rfl⟩

theorem linkFails_port (p q : Port) (k : CommandKind) (s : State) :
    (linkFails p k s).port q = { s.port q with confirmed := none, pendingFlag := (s.port q).present } := by
  have ports : (linkFails p k s).ports =
      ((report (.linkFaultDown p k) s).mapPorts fun _ r =>
        { r with confirmed := none, pendingFlag := r.present }).ports := rfl
  rw [port_congr ports, port_mapPorts, port_report]

theorem linkFails_opt (p : Port) (k : CommandKind) (s : State) (i : Fin 32) :
    (linkFails p k s).probe.opt.get i = none := Vector.getElem_replicate i.isLt

theorem linkFails_reports (p : Port) (k : CommandKind) (s : State) :
    (linkFails p k s).reports = (report (.linkFaultDown p k) s).reports := by
  unfold linkFails
  simp only [mapPorts_reports]

theorem linkFails_glink (p : Port) (k : CommandKind) (s : State) :
    (linkFails p k s).glink = { s.glink with state := .unresponsive } := by
  unfold linkFails
  simp only [mapPorts_glink, report_glink]

theorem linkFails_arbiter (p : Port) (k : CommandKind) (s : State) :
    (linkFails p k s).arbiter = { s.arbiter with pacing := true, allowance := false } := by
  unfold linkFails
  simp only [mapPorts_arbiter, report_arbiter]

/-- Settles O33: the third timeout of a run ends its command as any timeout does, and the link fails. -/
theorem thirdTimeoutStopsTheLink : Obligations.ThirdTimeoutStopsTheLink := by
  intro s o up run sound outstanding running
  have ended := frame_commandEnded o sound
  have glink := commandEnded_glink o s
  refine ⟨_, (exec_timeout outstanding running).trans (congrArg _ (commandTimeout_third o up run)), ?_, ?_, ?_,
    fun p => ?_, ?_, ?_, ?_, rfl, linkFails_opt _ _ _, ?_⟩
  · refine OnlyChanges.comp ?_ (frame_linkFails _ _ _) (by decide)
    exact (ended.mono (by decide)).comp (frame_countTimeout _) (by decide)
  · rw [linkFails_glink]
  · rw [linkFails_glink]
    exact congrArg GuardLink.outstanding glink
  · obtain ⟨guard, wanted⟩ := commandEnded_port o s p
    rw [linkFails_port, port_congr (show (countTimeout (commandEnded o s)).ports = (commandEnded o s).ports from rfl)]
    exact ⟨rfl, rfl, guard, wanted⟩
  · rw [linkFails_arbiter]
  · rw [linkFails_arbiter]
  · rw [linkFails_arbiter]
    show min 3 ((commandEnded o s).arbiter.faultRun + 1) = 3
    rw [commandEnded_faultRun, run]
    rfl
  · rw [linkFails_reports]
    exact report_reports_congr _ (ended .reports (by decide))
      (congrArg IntervalClock.stamp (ended .clock (by decide)))

end Sys2Proof.Machine
end

section
/-! SUPPORT. The judgement of a CATCH (R47): foreign, malformed, late, repeat, and the catch that is credited. -/

namespace Sys2Proof.Machine

theorem exec_catch_up {s : State} (y x : PortField) (r : Round) (d : Identity) (loaded : s.control.loading = false)
    (link : s.glink.state = .up) :
    exec (.catchRecord y x r d) s = .next (catchAtProbe y x r d s.received) := by
  show execCatch _ _ _ _ s = _
  simp only [execCatch, inbound_up _ _ _ loaded link]

/-- A catch of another identity raises the foreign count alone. -/
theorem catchAtProbe_foreign {y x : PortField} {r : Round} {d : Identity} {s : State} (h : d ≠ s.identity) :
    catchAtProbe y x r d s = { s with probe := { s.probe with foreign := satInc s.probe.foreign } } := if_pos h

/-- A catch that names a port above 27 raises the malformed count alone. -/
theorem catchAtProbe_malformed {y x : PortField} (r : Round) {s : State} (h : 28 ≤ x.toNat ∨ 28 ≤ y.toNat) :
    catchAtProbe y x r s.identity s =
      { s with probe := { s.probe with malformed := satInc s.probe.malformed } } := by
  unfold catchAtProbe
  rw [if_neg (not_not.mpr rfl)]
  rcases h with h | h
  · rw [portOf_none h]
  · rw [portOf_none h]
    cases portOf x <;> rfl

/-- A catch of the part's identity between two ports goes on to the lookup. -/
theorem catchAtProbe_ports (yp xp : Port) (r : Round) (s : State) :
    catchAtProbe (portField yp) (portField xp) r s.identity s = catchOn xp yp r s := by
  unfold catchAtProbe
  rw [if_neg (not_not.mpr rfl), portOf_portField, portOf_portField]

/-- A catch at an ingress without link is late. -/
theorem catchOn_down {xp yp : Port} (r : Round) {s : State}
    (h : (s.port yp).present = false ∨ (s.port yp).linkUp = false) : catchOn xp yp r s = lateCatch s := by
  unfold catchOn
  rw [if_neg]
  rw [Bool.and_eq_true, not_and_or, Bool.not_eq_true, Bool.not_eq_true]
  exact h

/-- A catch at an ingress with link whose lookup finds no entry. -/
theorem catchOn_none {xp yp : Port} {r : Round} {s : State} (present : (s.port yp).present = true)
    (up : (s.port yp).linkUp = true) (none : findOpt r xp (readOpt s) = none) :
    catchOn xp yp r s = lateCatch (readOpt s) := by
  unfold catchOn
  rw [if_pos (by rw [present, up]; rfl)]
  simp only [none]

/-- A catch at an ingress with link whose lookup finds an entry. -/
theorem catchOn_some {xp yp : Port} {r : Round} {s : State} {i : Fin 32} (present : (s.port yp).present = true)
    (up : (s.port yp).linkUp = true) (found : findOpt r xp (readOpt s) = some i) :
    catchOn xp yp r s = catchFound i yp (readOpt s) := by
  unfold catchOn
  rw [if_pos (by rw [present, up]; rfl)]
  simp only [found]

/-- A probe with no entry is late. -/
theorem catchOn_late {xp yp : Port} {r : Round} {s : State} (present : (s.port yp).present = true)
    (up : (s.port yp).linkUp = true)
    (none : ∀ i e, (readOpt s).probe.opt.get i = some e → ¬(e.round = r ∧ e.egress = xp)) :
    catchOn xp yp r s = lateCatch (readOpt s) := catchOn_none present up (findOpt_none.mpr none)

/-- A probe with one entry, which passes its parity check as every other does. -/
theorem catchOn_found {xp yp : Port} {r : Round} {s : State} {i : Fin 32} {e : OptEntry} (sound : OptSound s)
    (present : (s.port yp).present = true) (up : (s.port yp).linkUp = true) (entry : s.probe.opt.get i = some e)
    (round : e.round = r) (egress : e.egress = xp)
    (one : ∀ j f, s.probe.opt.get j = some f → f.round = r → f.egress = xp → j = i) :
    catchOn xp yp r s = catchFound i yp s := by
  have read := readOpt_sound sound
  rw [catchOn_some present up (i := i) (by rw [read]; exact findOpt_unique entry round egress one), read]

/-- A catch of a pair that its entry has caught already is a wake event alone. -/
theorem catchFound_repeat {i : Fin 32} {y : Port} {s : State} {e : OptEntry} (entry : s.probe.opt.get i = some e)
    (mem : y ∈ e.caught) : catchFound i y s = s.woken .caught y := by
  unfold catchFound
  simp only [entry, mem, if_true, wake_eq_woken]

/-- A credited catch wakes the part, joins the caught set of its entry and is a sighting. -/
theorem catchFound_credited {i : Fin 32} {y : Port} {s : State} {e : OptEntry} (entry : s.probe.opt.get i = some e)
    (new : y ∉ e.caught) :
    catchFound i y s =
      sighting e.egress y (writeOpt i { e with caught := insertPort y e.caught } (s.woken .caught y)) := by
  unfold catchFound
  simp only [entry, new, if_false, wake_eq_woken]

/-- Settles O17: the checks of R47 come one after another, and each that ends the judgement raises its own count. -/
theorem catchIsJudgedInOrder : Obligations.CatchIsJudgedInOrder := by
  intro s y x r d loaded link
  have judged := exec_catch_up y x r d loaded link
  refine ⟨fun foreign => ?_, ?_, ?_⟩
  · rw [judged, catchAtProbe_foreign (s := s.received) foreign]
    rfl
  · rintro rfl high
    exact judged.trans (congrArg _ (catchAtProbe_malformed (s := s.received) r high))
  · rintro xp yp rfl rfl rfl
    replace judged := judged.trans (congrArg _ (catchAtProbe_ports yp xp r s.received))
    refine ⟨fun down => ?_, fun present up sound none => ?_, ?_⟩
    · rw [judged, catchOn_down (s := s.received) r down]
      rfl
    · have read : readOpt s.received = s.received := readOpt_sound (s := s.received) sound
      rw [judged, catchOn_late (s := s.received) present up (by rw [read]; exact none), read]
      rfl
    · intro present up sound i e entry round egress mem one
      rw [judged, catchOn_found (s := s.received) sound present up entry round egress one,
        catchFound_repeat (s := s.received) entry mem, woken_received]

end Sys2Proof.Machine
end

section
/-! SUPPORT. The events that add neither a probe nor evidence: what they leave of the pending probe list, the OPT and
the LET was there before, its ports have their links and roles still, and guard states go on to fit their ports (R42,
R43, R57, R78). -/

namespace Sys2Proof.Machine

/-! ### What such an event leaves -/

/-- A port with link and a role that is probed (R2, R41). -/
def State.Probed (s : State) (p : Port) : Prop := (s.port p).linkUp = true ∧ (s.port p).role.probed = true

/-- The Settings Store load of a reset runs, and the mode is the one a reset leaves (R142). -/
def State.Idle (s : State) : Prop := s.control.loading = true ∧ s.control.mode = .start

/-- An entry of the LET after sightings and confirmations with this nCONF: its pair is the same, and its count is within
its range if it was. -/
structure LetEntry.Renewed (nCONF : Nat) (f e : LetEntry) : Prop where
  egress : e.egress = f.egress
  ingress : e.ingress = f.ingress
  count : nCONF ≤ 7 → 1 ≤ f.count ∧ f.count ≤ 7 → 1 ≤ e.count ∧ e.count ≤ 7

/-- From `s` to `t` no probe and no evidence is added, and what is left stands at ports that have kept their links and
roles. -/
structure Thinned (s t : State) : Prop where
  fits : (∀ p, (s.port p).Fits) → ∀ p, (t.port p).Fits
  nconf : s.control.policy.nCONF ≤ 7 → t.control.policy.nCONF ≤ 7
  list : t.probe.list.Sublist s.probe.list
  listed : ∀ p ∈ t.probe.list, s.Probed p → t.Probed p
  opt : ∀ i e, t.probe.opt.get i = some e →
    (s.Probed e.egress → t.Probed e.egress) ∧
      ∃ f, s.probe.opt.get i = some f ∧ e.round = f.round ∧ e.egress = f.egress
  slots : ∀ i e, t.evidence.slots.get i = some e →
    (s.Probed e.egress → t.Probed e.egress) ∧
      ((s.port e.ingress).linkUp = true → (t.port e.ingress).linkUp = true) ∧
      ∃ f, s.evidence.slots.get i = some f ∧ f.Renewed s.control.policy.nCONF e
  round : t.clock.round = s.clock.round
  loading : t.control.loading = s.control.loading
  idle : s.Idle → t.control.mode = .start ∧ t.clock.roundDue = s.clock.roundDue

theorem LetEntry.Renewed.refl (n : Nat) (e : LetEntry) : e.Renewed n e := ⟨rfl, rfl, fun _ h => h⟩

theorem Thinned.refl (s : State) : Thinned s s where
  fits h := h
  nconf h := h
  list := List.Sublist.refl _
  listed _ _ h := h
  opt _ e h := ⟨id, e, h, rfl, rfl⟩
  slots _ e h := ⟨id, id, e, h, .refl _ e⟩
  round := rfl
  loading := rfl
  idle h := ⟨h.2, rfl⟩

/-- Read through one event after another; a bound on nCONF reaches the second event through the first. -/
theorem Thinned.trans {s t u : State} (h : Thinned s t) (k : Thinned t u) : Thinned s u where
  fits f := k.fits (h.fits f)
  nconf n := k.nconf (h.nconf n)
  list := k.list.trans h.list
  listed p mem probed := k.listed p mem (h.listed p (k.list.subset mem) probed)
  opt i e entry := by
    obtain ⟨seat, f, entry, round, egress⟩ := k.opt i e entry
    obtain ⟨seat', g, entry, round', egress'⟩ := h.opt i f entry
    exact ⟨fun p => seat (egress ▸ seat' (egress ▸ p)), g, entry, round.trans round', egress.trans egress'⟩
  slots i e entry := by
    obtain ⟨seat, link, f, entry, renewed⟩ := k.slots i e entry
    obtain ⟨seat', link', g, entry, renewed'⟩ := h.slots i f entry
    refine ⟨fun p => seat (renewed.egress ▸ seat' (renewed.egress ▸ p)),
      fun p => link (renewed.ingress ▸ link' (renewed.ingress ▸ p)), g, entry,
      renewed.egress.trans renewed'.egress, renewed.ingress.trans renewed'.ingress,
      fun n c => renewed.count (h.nconf n) (renewed'.count n c)⟩
  round := k.round.trans h.round
  loading := k.loading.trans h.loading
  idle i := by
    obtain ⟨mode, due⟩ := h.idle i
    obtain ⟨mode', due'⟩ := k.idle ⟨h.loading.trans i.1, mode⟩
    exact ⟨mode', due'.trans due⟩

theorem Thinned.foldl {α : Type} {f : State → α → State} (h : ∀ s a, Thinned s (f s a)) :
    ∀ (l : List α) (s : State), Thinned s (l.foldl f s)
  | [], s => Thinned.refl s
  | a :: l, s => (h s a).trans (Thinned.foldl h l (f s a))

theorem Thinned.ite {c : Prop} [Decidable c] {s t : State} (h : Thinned s t) : Thinned s (if c then t else s) := by
  split
  · exact h
  · exact Thinned.refl s

theorem roundNow_congr {s t : State} (h : t.clock.round = s.clock.round) : t.roundNow = s.roundNow := by
  simp only [State.roundNow, h]

/-- The properties of the tables hold on. -/
theorem Thinned.tablesFit {s t : State} (k : Thinned s t) (h : TablesFit s) : TablesFit t where
  guard := k.fits h.guard
  nconf := k.nconf h.nconf
  sorted := h.sorted.sublist k.list
  listed p mem := k.listed p mem (h.listed p (k.list.subset mem))
  fresh p mem i e entry egress := by
    obtain ⟨-, f, entry, round, egress'⟩ := k.opt i e entry
    rw [round, roundNow_congr k.round]
    exact h.fresh p (k.list.subset mem) i f entry (egress'.symm.trans egress)
  optPort i e entry := by
    obtain ⟨seat, f, entry, -, egress⟩ := k.opt i e entry
    exact seat (egress ▸ h.optPort i f entry)
  optRound i e entry := by
    obtain ⟨-, f, entry, round, -⟩ := k.opt i e entry
    rw [round, roundNow_congr k.round]
    exact h.optRound i f entry
  optOnce i j e f ei fj round egress := by
    obtain ⟨-, e', ei, re, ee⟩ := k.opt i e ei
    obtain ⟨-, f', fj, rf, ef⟩ := k.opt j f fj
    exact h.optOnce i j e' f' ei fj (re.symm.trans (round.trans rf)) (ee.symm.trans (egress.trans ef))
  noRound none := by
    obtain ⟨list, opt⟩ := h.noRound (k.round.symm.trans none)
    refine ⟨List.sublist_nil.mp (list ▸ k.list), fun i => ?_⟩
    cases entry : t.probe.opt.get i with
    | none => rfl
    | some e =>
      obtain ⟨-, f, entry, -⟩ := k.opt i e entry
      rw [opt i] at entry
      cases entry
  letCount i e entry := by
    obtain ⟨-, -, f, entry, renewed⟩ := k.slots i e entry
    exact renewed.count h.nconf (h.letCount i f entry)
  letPort i e entry := by
    obtain ⟨seat, link, f, entry, renewed⟩ := k.slots i e entry
    obtain ⟨egress, ingress, probed⟩ := h.letPort i f entry
    obtain ⟨egress', probed'⟩ := seat (renewed.egress ▸ ⟨egress, probed⟩)
    exact ⟨egress', link (renewed.ingress ▸ ingress), probed'⟩
  letOnce i j e f ei fj egress ingress := by
    obtain ⟨-, -, e', ei, re⟩ := k.slots i e ei
    obtain ⟨-, -, f', fj, rf⟩ := k.slots j f fj
    exact h.letOnce i j e' f' ei fj (re.egress.symm.trans (egress.trans rf.egress))
      (re.ingress.symm.trans (ingress.trans rf.ingress))
  loading l := by
    obtain ⟨mode, due, none, empty⟩ := h.loading (k.loading.symm.trans l)
    obtain ⟨mode', due'⟩ := k.idle ⟨k.loading.symm.trans l, mode⟩
    refine ⟨mode', due'.trans due, k.round.trans none, fun i => ?_⟩
    cases entry : t.evidence.slots.get i with
    | none => rfl
    | some e =>
      obtain ⟨-, -, f, entry, -⟩ := k.slots i e entry
      rw [empty i] at entry
      cases entry

/-! ### Records that stand -/

/-- A record keeps role, presence and link flag, and its guard state, if that moves, moves among the linked ones. -/
structure PortRec.Stands (r u : PortRec) : Prop where
  role : u.role = r.role
  present : u.present = r.present
  linkUp : u.linkUp = r.linkUp
  guard : u.guard = r.guard ∨ r.guard.linked = true ∧ u.guard.linked = true

theorem PortRec.Stands.refl (r : PortRec) : r.Stands r := ⟨rfl, rfl, rfl, Or.inl rfl⟩

theorem PortRec.Stands.trans {a b c : PortRec} (h : a.Stands b) (k : b.Stands c) : a.Stands c where
  role := k.role.trans h.role
  present := k.present.trans h.present
  linkUp := k.linkUp.trans h.linkUp
  guard := by
    rcases h.guard with e | ⟨l, m⟩
    · rcases k.guard with e' | ⟨l', m'⟩
      · exact Or.inl (e'.trans e)
      · exact Or.inr ⟨e ▸ l', m'⟩
    · rcases k.guard with e' | ⟨-, m'⟩
      · exact Or.inr ⟨l, e' ▸ m⟩
      · exact Or.inr ⟨l, m'⟩

/-- A guard state that fits its port goes on to fit it. -/
theorem PortRec.Stands.fits {r u : PortRec} (k : r.Stands u) (h : r.Fits) : u.Fits := by
  obtain ⟨role, present, linkUp, guard⟩ := k
  rcases guard with same | ⟨linked, linked'⟩
  · exact ⟨by rw [same, linkUp]; exact h.linked, by rw [same, linkUp]; exact h.down,
      by rw [same, role, present]; exact h.disabled, by rw [present, linkUp]; exact h.absent⟩
  · have enabled : ¬ (r.role = .unused ∨ r.present = false) := fun out => by
      rw [h.disabled.mpr out] at linked; cases linked
    refine ⟨fun _ => linkUp.trans (h.linked linked), fun down => ?_, ⟨fun out => ?_, fun out => ?_⟩, ?_⟩
    · rw [down] at linked'; cases linked'
    · rw [out] at linked'; cases linked'
    · rw [role, present] at out; exact absurd out enabled
    · rw [present, linkUp]; exact h.absent

/-- Every record stands. -/
def Stands (s t : State) : Prop := ∀ p, (s.port p).Stands (t.port p)

theorem Stands.refl (s : State) : Stands s s := fun p => .refl (s.port p)

theorem Stands.trans {s t u : State} (h : Stands s t) (k : Stands t u) : Stands s u := fun p => (h p).trans (k p)

theorem Stands.of_ports {s t : State} (h : t.ports = s.ports) : Stands s t := fun p => by
  rw [port_congr h]; exact .refl _

theorem Stands.probed {s t : State} (h : Stands s t) {p : Port} (k : s.Probed p) : t.Probed p :=
  ⟨(h p).linkUp.trans k.1, by rw [(h p).role]; exact k.2⟩

theorem enter_stands {r : PortRec} {g : GuardState} (n k : Nat) (linked : r.guard.linked = true)
    (h : g.linked = true) : r.Stands (r.enter g n k) := by
  have fields := enter_fields r g n k
  exact ⟨fields.role, fields.present, fields.linkUp, Or.inr ⟨linked, by rw [(enter_spec r g n k).1]; exact h⟩⟩

theorem deriveWanted_stands (r : PortRec) : r.Stands r.deriveWanted :=
  have kept := deriveWanted_kept r
  ⟨kept.role, kept.present, kept.linkUp, Or.inl (deriveWanted_guard r)⟩

theorem gone_stands (r : PortRec) : r.Stands r.gone := by
  unfold PortRec.gone
  split
  · next h => exact enter_stands 0 0 (by rw [h]; rfl) rfl
  · split
    · next h => exact enter_stands 0 0 (by rw [h.1]; rfl) rfl
    · exact .refl r

theorem GoneAtMost.stands {s t : State} (h : GoneAtMost s t) : Stands s t := fun p => by
  rcases h p with h | h <;> rw [h]
  · exact .refl _
  · exact gone_stands _

theorem stands_setPort {s : State} {p : Port} {r : PortRec} (h : (s.port p).Stands r) : Stands s (s.setPort p r) := by
  intro q
  rw [port_setPort]
  split
  · next e => subst e; exact h
  · exact .refl _

theorem stands_modPort {s : State} {p : Port} {f : PortRec → PortRec} (h : (s.port p).Stands (f (s.port p))) :
    Stands s (s.modPort p f) := stands_setPort h

theorem stands_mapPorts {f : Port → PortRec → PortRec} (s : State) (h : ∀ p (r : PortRec), r.Stands (f p r)) :
    Stands s (s.mapPorts f) := fun p => by rw [port_mapPorts]; exact h p _

theorem stands_moveGuard {p : Port} {g : GuardState} {s : State} (n k : Nat) (c : StateCause)
    (linked : (s.port p).guard.linked = true) (h : g.linked = true) : Stands s (moveGuard p g n k c s) := by
  intro q
  rw [moveGuard_port]
  split
  · next e => subst e; exact enter_stands n k linked h
  · exact .refl _

theorem stands_goPlain {p : Port} {g : GuardState} {s : State} (c : StateCause)
    (linked : (s.port p).guard.linked = true) (h : g.linked = true) : Stands s (goPlain p g c s) :=
  stands_moveGuard 0 0 c linked h

theorem stands_goThrottle {p : Port} {s : State} (c : StateCause) (linked : (s.port p).guard.linked = true) :
    Stands s (goThrottle p c s) := stands_moveGuard _ 0 c linked rfl

/-! ### Events by the parts they change -/

/-- An event that leaves the tables, the Mode Unit and the clock, and whose records stand. -/
theorem Thinned.of_stands {l : List Part} {s t : State} (k : Stands s t) (h : OnlyChanges l s t)
    (aside : ∀ a ∈ l, a ∉ [Part.probe, .evidence, .control, .clock]) : Thinned s t := by
  have out (a : Part) (mem : a ∈ [Part.probe, .evidence, .control, .clock]) : a ∉ l := fun m => aside a m mem
  have probe : t.probe = s.probe := h .probe (out _ (by decide))
  have evidence : t.evidence = s.evidence := h .evidence (out _ (by decide))
  have control : t.control = s.control := h .control (out _ (by decide))
  have clock : t.clock = s.clock := h .clock (out _ (by decide))
  exact
    { fits := fun f p => (k p).fits (f p)
      nconf := fun n => by rw [control]; exact n
      list := by rw [probe]
      listed := fun p _ probed => k.probed probed
      opt := fun i e entry => ⟨k.probed, e, probe ▸ entry, rfl, rfl⟩
      slots := fun i e entry =>
        ⟨k.probed, fun up => (k e.ingress).linkUp.trans up, e, evidence ▸ entry, .refl _ e⟩
      round := by rw [clock]
      loading := by rw [control]
      idle := fun i => by rw [control, clock]; exact ⟨i.2, rfl⟩ }

/-- An event that leaves the records too. -/
theorem Thinned.of_frame {l : List Part} {s t : State} (h : OnlyChanges l s t)
    (aside : ∀ a ∈ l, a ∉ [Part.ports, .probe, .evidence, .control, .clock]) : Thinned s t :=
  .of_stands (Stands.of_ports (h .ports fun m => aside _ m (by decide))) h
    fun a m mem => aside a m (List.mem_cons_of_mem _ mem)

/-- An event of the Evidence Unit: it changes the LET besides the guard records. -/
theorem Thinned.of_slots {l : List Part} {s t : State} (k : Stands s t) (h : OnlyChanges l s t)
    (aside : ∀ a ∈ l, a ∉ [Part.probe, .control, .clock])
    (slots : ∀ i e, t.evidence.slots.get i = some e →
      ∃ f, s.evidence.slots.get i = some f ∧ f.Renewed s.control.policy.nCONF e) : Thinned s t := by
  have out (a : Part) (mem : a ∈ [Part.probe, .control, .clock]) : a ∉ l := fun m => aside a m mem
  have probe : t.probe = s.probe := h .probe (out _ (by decide))
  have control : t.control = s.control := h .control (out _ (by decide))
  have clock : t.clock = s.clock := h .clock (out _ (by decide))
  exact
    { fits := fun f p => (k p).fits (f p)
      nconf := fun n => by rw [control]; exact n
      list := by rw [probe]
      listed := fun p _ probed => k.probed probed
      opt := fun i e entry => ⟨k.probed, e, probe ▸ entry, rfl, rfl⟩
      slots := fun i e entry => ⟨k.probed, fun up => (k e.ingress).linkUp.trans up, slots i e entry⟩
      round := by rw [clock]
      loading := by rw [control]
      idle := fun i => by rw [control, clock]; exact ⟨i.2, rfl⟩ }

/-- A change of the probe list and the OPT that adds to neither. -/
theorem Thinned.of_probe {l : List Part} {s t : State} (h : OnlyChanges l s t)
    (aside : ∀ a ∈ l, a ∉ [Part.ports, .evidence, .control, .clock]) (list : t.probe.list.Sublist s.probe.list)
    (opt : ∀ i e, t.probe.opt.get i = some e →
      ∃ f, s.probe.opt.get i = some f ∧ e.round = f.round ∧ e.egress = f.egress) : Thinned s t := by
  have out (a : Part) (mem : a ∈ [Part.ports, .evidence, .control, .clock]) : a ∉ l := fun m => aside a m mem
  have evidence : t.evidence = s.evidence := h .evidence (out _ (by decide))
  have control : t.control = s.control := h .control (out _ (by decide))
  have clock : t.clock = s.clock := h .clock (out _ (by decide))
  have k : Stands s t := .of_ports (h .ports (out _ (by decide)))
  exact
    { fits := fun f p => (k p).fits (f p)
      nconf := fun n => by rw [control]; exact n
      list := list
      listed := fun p _ probed => k.probed probed
      opt := fun i e entry => ⟨k.probed, opt i e entry⟩
      slots := fun i e entry =>
        ⟨k.probed, fun up => (k e.ingress).linkUp.trans up, e, evidence ▸ entry, .refl _ e⟩
      round := by rw [clock]
      loading := by rw [control]
      idle := fun i => by rw [control, clock]; exact ⟨i.2, rfl⟩ }

/-- A change of the Mode Unit that neither begins nor ends a load, and does not leave START during one. -/
theorem thinned_set_control (s : State) (x : ModeUnit)
    (nconf : s.control.policy.nCONF ≤ 7 → x.policy.nCONF ≤ 7) (loading : x.loading = s.control.loading)
    (mode : s.Idle → x.mode = .start) : Thinned s { s with control := x } :=
  { Thinned.refl s with nconf := nconf, loading := loading, idle := fun i => ⟨mode i, rfl⟩ }

end Sys2Proof.Machine
end

section
/-! SUPPORT. Guard events, evidence events, expiries and the other operations that add neither a probe nor evidence. -/

namespace Sys2Proof.Machine

/-! ### The Port Guard -/

theorem stands_evidenceEvent (p : Port) (s : State) : Stands s (evidenceEvent p s) := by
  unfold evidenceEvent
  split
  · exact stands_modPort ⟨rfl, rfl, rfl, Or.inl rfl⟩
  · next g => exact stands_goPlain _ (by rw [g]; rfl) rfl
  all_goals exact .refl s

theorem stands_evidenceGone (p : Port) (s : State) : Stands s (evidenceGone p s) := fun q => by
  rw [evidenceGone_port]
  split
  · next e => rw [e]; exact gone_stands _
  · exact .refl _

theorem struck_stands {r : PortRec} (n : Nat) (blockable : r.guard.blockable = true) : r.Stands (r.struck n) := by
  obtain ⟨role, present, linkUp, guard⟩ := enter_stands (r := { r with strike := strikeUp r.strike }) (g := .blocked) 0
    (holdFor n (strikeUp r.strike)) (blockable_linked blockable) rfl
  exact ⟨role, present, linkUp, guard⟩

theorem stands_confirmEffects (e : LetEntry) (first : Bool) (s : State) : Stands s (confirmEffects e first s) :=
  fun q => by
    rw [confirmEffects_port]
    split
    · next struck => exact struck_stands _ struck.2
    · exact .refl _

theorem stands_tripPassed (p : Port) (s : State) : Stands s (tripPassed p s) := by
  unfold tripPassed
  split
  · next g => exact stands_goThrottle _ (by rw [g]; rfl)
  · next g => exact stands_goThrottle _ (by rw [g]; rfl)
  · exact stands_modPort ⟨rfl, rfl, rfl, Or.inl rfl⟩
  · exact stands_modPort ⟨rfl, rfl, rfl, Or.inl rfl⟩
  all_goals exact .refl s

theorem stands_leaveListen {p : Port} {s : State} (linked : (s.port p).guard.linked = true) :
    Stands s (leaveListen p s) := by
  unfold leaveListen
  split
  · exact stands_goThrottle _ linked
  · exact stands_goPlain _ linked rfl

theorem stands_listenJudge {p : Port} (clean : Bool) {s : State} (linked : (s.port p).guard.linked = true) :
    Stands s (listenJudge p clean s) := by
  have counted (n : Nat) : Stands s (s.modPort p fun r => { r with listen := n }) :=
    stands_modPort ⟨rfl, rfl, rfl, Or.inl rfl⟩
  unfold listenJudge
  split
  · dsimp only
    split
    · exact (counted _).trans (stands_leaveListen (by rw [port_modPort_self]; exact linked))
    · exact counted _
  · exact counted 0

/-! ### Reads of the LET, and removals from it -/

theorem thinned_readLet (s : State) : Thinned s (readLet s) :=
  .of_slots (.of_ports (frame_readLet s .ports (by decide))) (frame_readLet s) (by decide)
    fun i e entry => ⟨e, ((readLet_get s i e).mp entry).1, .refl _ e⟩

theorem thinned_settleSweep (s : State) : Thinned s (settleSweep s) :=
  .of_slots (goneAtMost_settleSweep s).stands (frame_settleSweep s) (by decide)
    fun i e entry => ⟨e, ((settleSweep_get s i e).mp entry).1, .refl _ e⟩

theorem thinned_withdraw (c : LetEntry → Bool) (s : State) : Thinned s (withdraw c s) :=
  .of_slots (goneAtMost_withdraw c s).stands (frame_withdraw c s) (by decide)
    fun i e entry => ⟨e, ((withdraw_get c s i e).mp entry).1, .refl _ e⟩

/-- A removal's read of the LET, an event that leaves the tables, and the sweep. -/
theorem thinned_swept {s t : State} (h : Thinned (readLet s) t) : Thinned s (settleSweep t) :=
  ((thinned_readLet s).trans h).trans (thinned_settleSweep t)

theorem readLet_port (s : State) (p : Port) : (readLet s).port p = s.port p :=
  port_congr (frame_readLet s .ports (by decide)) p

theorem thinned_leaveThrottle {p : Port} {s : State} (linked : (s.port p).guard.linked = true) :
    Thinned s (leaveThrottle p s) := by
  have left (g : GuardState) (h : g.linked = true) : Thinned (readLet s) (goPlain p g .clear (readLet s)) :=
    .of_stands (stands_goPlain _ (by rw [readLet_port]; exact linked) h) (frame_goPlain _ _ _ _) (by decide)
  unfold leaveThrottle
  refine thinned_swept ?_
  split
  · exact left .suspect rfl
  · exact left .forward rfl

theorem thinned_clearEvent (p : Port) (s : State) : Thinned s (clearEvent p s) := by
  unfold clearEvent
  split
  · next h => exact thinned_leaveThrottle (by rw [h.1]; rfl)
  · exact .refl s

/-- A change of the counts and marks of one guard record. -/
theorem thinned_modPort {p : Port} {f : PortRec → PortRec} {s : State} (h : (s.port p).Stands (f (s.port p))) :
    Thinned s (s.modPort p f) := .of_stands (stands_modPort h) (frame_modPort p f s) (by decide)

theorem thinned_throttleEnds (p : Port) (s : State) : Thinned s (throttleEnds p s) := by
  have judged : Thinned s (s.modPort p fun r => { r with throttleDue := false }) :=
    thinned_modPort ⟨rfl, rfl, rfl, Or.inl rfl⟩
  unfold throttleEnds
  dsimp only
  split
  · next h =>
    obtain ⟨-, throttled, -⟩ := h
    exact judged.trans (thinned_leaveThrottle (by
      rw [port_modPort_self]
      show (s.port p).guard.linked = true
      rw [throttled]; rfl))
  · exact judged

theorem thinned_holdEnds (p : Port) (s : State) : Thinned s (holdEnds p s) := by
  have judged : Thinned s (s.modPort p fun r => { r with holdDue := false }) :=
    thinned_modPort ⟨rfl, rfl, rfl, Or.inl rfl⟩
  unfold holdEnds
  dsimp only
  split
  · next h =>
    obtain ⟨-, blocked, -⟩ := h
    refine judged.trans (thinned_swept ?_)
    split
    · exact .refl _
    · refine .of_stands (stands_goPlain _ ?_ rfl) (frame_goPlain _ _ _ _) (by decide)
      rw [readLet_port, port_modPort_self]
      show (s.port p).guard.linked = true
      rw [blocked]; rfl
  · exact judged

theorem thinned_decayEnds (p : Port) (s : State) : Thinned s (decayEnds p s) :=
  Thinned.ite (thinned_modPort ⟨rfl, rfl, rfl, Or.inl rfl⟩)

theorem thinned_portEnds (p : Port) (s : State) : Thinned s (portEnds p s) :=
  ((thinned_throttleEnds p s).trans (thinned_holdEnds p _)).trans (thinned_decayEnds p _)

theorem thinned_lowerPortsEnd (p : Port) (s : State) : Thinned s (lowerPortsEnd p s) :=
  Thinned.foldl (fun t q => thinned_portEnds q t) _ s

theorem thinned_listenBook (p : Port) (quiet : Bool) (s : State) : Thinned s (listenBook p quiet s) := by
  unfold listenBook
  split
  · next listens =>
    refine thinned_swept (.of_stands (stands_listenJudge _ ?_) (frame_listenJudge _ _ _) (by decide))
    rw [readLet_port, listens]; rfl
  · exact .refl s

theorem thinned_uplinkBook (s : State) : Thinned s (uplinkBook s) := by
  unfold uplinkBook
  split
  · exact Thinned.foldl (fun t p => (thinned_listenBook p true t).ite) _ s
  · exact .refl s

/-! ### Confirmations -/

theorem writeLet_get (i j : Fin 16) (e : LetEntry) (s : State) :
    (writeLet i e s).evidence.slots.get j =
      if j = i then some { e with parityOk := true } else s.evidence.slots.get j := get_set _ _ _ _

/-- An entry of the LET written anew, with its pair and a count within its range. -/
theorem thinned_writeLet {i : Fin 16} {f e : LetEntry} {s : State} (entry : s.evidence.slots.get i = some f)
    (renewed : f.Renewed s.control.policy.nCONF e) : Thinned s (writeLet i e s) := by
  refine .of_slots (.of_ports rfl) (frame_writeLet i e s) (by decide) fun j g written => ?_
  rw [writeLet_get] at written
  split at written
  · next same =>
    cases written
    exact ⟨f, same ▸ entry, renewed.egress, renewed.ingress, renewed.count⟩
  · exact ⟨g, written, .refl _ g⟩

theorem thinned_confirmSlot (i : Fin 16) (s : State) : Thinned s (confirmSlot i s) := by
  unfold confirmSlot
  split
  · exact .refl s
  · next e entry =>
    have renewed : e.Renewed s.control.policy.nCONF
        { e with count := max e.count s.control.policy.nCONF, confirmed := true } :=
      ⟨rfl, rfl, fun n c => by
        show 1 ≤ max e.count s.control.policy.nCONF ∧ max e.count s.control.policy.nCONF ≤ 7
        omega⟩
    have effects (f : LetEntry) (first : Bool) (t : State) : Thinned t (confirmEffects f first t) :=
      .of_stands (stands_confirmEffects f first t) (frame_confirmEffects f first t) (by decide)
    exact (thinned_writeLet entry renewed).trans (effects _ _ _)

theorem thinned_confirmCheck (i : Fin 16) (s : State) : Thinned s (confirmCheck i s) := by
  unfold confirmCheck
  split
  · exact .refl s
  · exact (thinned_confirmSlot i s).ite

theorem thinned_creditSlot (i : Fin 16) (s : State) : Thinned s (creditSlot i s) := by
  unfold creditSlot
  split
  · exact .refl s
  · next e entry =>
    have renewed : e.Renewed s.control.policy.nCONF { e with count := min Config.cleanMax (e.count + 1) } :=
      ⟨rfl, rfl, fun _ c => by
        show 1 ≤ min 7 (e.count + 1) ∧ min 7 (e.count + 1) ≤ 7
        omega⟩
    exact (thinned_writeLet entry renewed).trans (thinned_confirmCheck i _)

theorem thinned_interlock (p : Port) (s : State) : Thinned s (interlock p s) := by
  refine Thinned.foldl (fun t i => ?_) _ s
  unfold interlockSlot
  split
  · exact .refl t
  · exact (thinned_confirmSlot i t).ite

/-- The guard events of a new entry's steps 3 and 4 (R60). -/
theorem thinned_victims (evicted new : Option Port) (s : State) :
    Thinned s (newVictimEvidence new (evictedGone evicted s)) := by
  have gone (t : State) : Stands t (evictedGone evicted t) := by
    unfold evictedGone
    split
    · split
      · exact .refl t
      · exact stands_evidenceGone _ t
    · exact .refl t
  have evidence (t : State) : Stands t (newVictimEvidence new t) := by
    unfold newVictimEvidence
    split
    · exact stands_evidenceEvent _ t
    · exact .refl t
  exact .of_stands ((gone s).trans (evidence _))
    ((frame_evictedGone evicted s).comp (frame_newVictimEvidence new _) fun _ h => h) (by decide)

/-! ### Modes -/

/-- A change of mode, but not one out of the START of a load. -/
theorem thinned_setMode (m : Mode) (c : ModeCause) {s : State} (running : ¬ s.Idle) : Thinned s (setMode m c s) := by
  unfold setMode
  refine Thinned.trans ?_ (.of_frame (frame_report _ _) (by decide))
  exact thinned_set_control s { s.control with mode := m, hostLost := 0, hostLostDue := false } id rfl
    fun i => absurd i running

theorem thinned_wake (k : WakeKind) (p : Port) (s : State) : Thinned s (wake k p s) := by
  unfold wake
  split
  · next rest => exact thinned_setMode _ _ fun i => by rw [i.2] at rest; cases rest
  · exact .refl s

theorem thinned_tripEvent (p : Port) (s : State) : Thinned s (tripEvent p s) := by
  unfold tripEvent
  refine (thinned_wake .trip p s).trans (thinned_swept ((thinned_interlock p _).trans ?_))
  split
  · exact .refl _
  · exact .of_stands (stands_tripPassed p _) (frame_tripPassed p _) (by decide)

theorem thinned_digestAtMeter (p : Port) (stamp : Byte) (n : Nat) (s : State) :
    Thinned s (digestAtMeter p stamp n s) := by
  have late : Thinned s (lateDigest s) := .of_frame (frame_lateDigest s) (by decide)
  have updated : Thinned s (s.setPort p (meterUpdate (s.rowAt p) n (s.port p))) :=
    .of_stands (stands_setPort ⟨rfl, rfl, rfl, Or.inl rfl⟩) (frame_setPort _ _ _) (by decide)
  unfold digestAtMeter
  split
  · exact .refl s
  · split
    · exact late
    · split
      · exact late
      · split
        · exact late
        · unfold takeDigest
          refine updated.trans (Thinned.trans ?_ (.of_frame (frame_watchDigest _ _ _) (by decide)))
          split
          · exact thinned_tripEvent p _
          · exact (thinned_clearEvent p _).ite

/-! ### The OPT and the probe list -/

theorem writeOpt_get (i j : Fin 32) (e : OptEntry) (s : State) :
    (writeOpt i e s).probe.opt.get j = if j = i then some { e with parityOk := true } else s.probe.opt.get j :=
  get_set _ _ _ _

theorem clearOpt_get (i j : Fin 32) (s : State) :
    (clearOpt i s).probe.opt.get j = if j = i then none else s.probe.opt.get j := get_set _ _ _ _

theorem clearOpt_some {i j : Fin 32} {e : OptEntry} {s : State} (h : (clearOpt i s).probe.opt.get j = some e) :
    s.probe.opt.get j = some e := by
  rw [clearOpt_get] at h
  split at h
  · cases h
  · exact h

theorem thinned_readOpt (s : State) : Thinned s (readOpt s) :=
  .of_probe (frame_readOpt s) (by decide) (by rw [(readOpt_list s).1])
    fun i e entry => ⟨e, ((readOpt_get s i e).mp entry).1, rfl, rfl⟩

/-- An entry of the OPT written anew, with its round and egress. -/
theorem thinned_writeOpt {i : Fin 32} {f e : OptEntry} {s : State} (entry : s.probe.opt.get i = some f)
    (round : e.round = f.round) (egress : e.egress = f.egress) : Thinned s (writeOpt i e s) := by
  refine .of_probe (frame_writeOpt i e s) (by decide) (List.Sublist.refl _) fun j g written => ?_
  rw [writeOpt_get] at written
  split at written
  · next same =>
    cases written
    exact ⟨f, same ▸ entry, round, egress⟩
  · exact ⟨g, written, rfl, rfl⟩

theorem thinned_clearOpt (i : Fin 32) (s : State) : Thinned s (clearOpt i s) :=
  .of_probe (frame_clearOpt i s) (by decide) (List.Sublist.refl _) fun _ e entry => ⟨e, clearOpt_some entry, rfl, rfl⟩

theorem thinned_eraseOpt (c : OptEntry → Bool) (s : State) : Thinned s (eraseOpt c s) :=
  .of_probe (frame_eraseOpt c s) (by decide) (by simp only [eraseOpt, List.Sublist.refl])
    fun i e entry => ⟨e, ((eraseOpt_get c s i e).mp entry).1, rfl, rfl⟩

/-- A change of the Probe Unit's counts. -/
theorem thinned_probe_counts (s : State) (u : ProbeUnit) (list : u.list = s.probe.list) (opt : u.opt = s.probe.opt) :
    Thinned s { s with probe := u } :=
  .of_probe (frame_set_probe s u) (by decide) (by show u.list.Sublist _; rw [list])
    fun i e entry => ⟨e, opt ▸ entry, rfl, rfl⟩

theorem thinned_removeProbes (p : Port) (s : State) : Thinned s (removeProbes p s) :=
  (thinned_readOpt s).trans (thinned_eraseOpt _ _)

theorem thinned_dropProbe (p : Port) (s : State) : Thinned s (dropProbe p s) :=
  .of_probe (frame_dropProbe p s) (by decide) List.filter_sublist fun _ e entry => ⟨e, entry, rfl, rfl⟩

theorem thinned_probeAcked (r : Round) (x : Port) (s : State) : Thinned s (probeAcked r x s) := by
  unfold probeAcked
  refine (thinned_readOpt s).trans ?_
  dsimp only
  split
  · exact .refl _
  · split
    · exact .refl _
    · next entry => exact thinned_writeOpt entry rfl rfl

theorem thinned_probeEnded (r : Round) (x : Port) (s : State) : Thinned s (probeEnded r x s) := by
  unfold probeEnded
  refine (thinned_readOpt s).trans ?_
  dsimp only
  split
  · exact .refl _
  · exact (thinned_clearOpt _ _).trans (thinned_probe_counts _ _ rfl rfl)

theorem thinned_expireSlot (i : Fin 32) (s : State) : Thinned s (expireSlot i s) := by
  unfold expireSlot
  split
  · exact .refl s
  · exact ((thinned_withdraw _ s).trans (thinned_listenBook _ _ _).ite).trans (thinned_clearOpt i _)

theorem thinned_expireAll (l : List (Fin 32)) (s : State) : Thinned s (l.foldl (fun u i => expireSlot i u) s) :=
  Thinned.foldl (fun t i => thinned_expireSlot i t) l s

theorem thinned_dealOld (r : Round) (s : State) : Thinned s (dealOld r s) :=
  ((thinned_readOpt s).trans (thinned_eraseOpt _ _)).trans (thinned_expireAll _ _)

/-! ### The command channel and the interval -/

theorem thinned_linkFails (p : Port) (k : CommandKind) (s : State) : Thinned s (linkFails p k s) := by
  have failed : Thinned s ((report (.linkFaultDown p k) s).mapPorts fun _ r =>
      { r with confirmed := none, pendingFlag := r.present }) :=
    Thinned.trans (.of_frame (frame_report _ s) (by decide))
      (.of_stands (stands_mapPorts _ fun _ _ => ⟨rfl, rfl, rfl, Or.inl rfl⟩) (frame_mapPorts _ _) (by decide))
  have emptied (t : State) (g : GuardLink) (a : Arbiter) :
      Thinned t
        { t with glink := g, arbiter := a, probe := { t.probe with list := [], opt := Vector.replicate 32 none } } :=
    .of_probe (frame_set_fault t g a _) (by decide) (List.nil_sublist _) fun i e entry => by
      have none : (Vector.replicate 32 (Option.none (α := OptEntry))).get i = Option.none :=
        Vector.getElem_replicate i.isLt
      rw [none] at entry
      cases entry
  exact failed.trans (emptied _ _ _)

theorem thinned_setportTimedOut (p q : Port) (s : State) : Thinned s (setportTimedOut p q s) :=
  (thinned_modPort ⟨rfl, rfl, rfl, Or.inl rfl⟩).trans (.of_frame (frame_set_arbiter _ _) (by decide))

theorem thinned_commandTimeout (o : Outstanding) (s : State) : Thinned s (commandTimeout o s) := by
  have timed : Thinned s (timedOut s) := .of_frame (frame_set_glink s _) (by decide)
  have ended : Thinned s (commandEnded o s) := by
    unfold commandEnded
    split
    · exact timed.trans (thinned_setportTimedOut _ _ _)
    · exact timed.trans (thinned_probeEnded _ _ _)
  rw [commandTimeout_eq]
  exact (ended.trans (.of_frame (frame_countTimeout _) (by decide))).trans (thinned_linkFails _ _ _).ite

theorem thinned_grantSetport (p : Port) (s : State) : Thinned s (grantSetport p s) :=
  .of_stands (t := grantSetport p s)
    (Stands.trans (t := s.modPort p fun r => ({ r with inFlight := some (s.port p).wanted } : PortRec).recompute)
      (stands_modPort ⟨rfl, rfl, rfl, Or.inl rfl⟩)
      (.of_ports (frame_handTx _ _ .ports (by decide))))
    (frame_grantSetport p s) (by decide)

theorem tickRec_stands (n : Nat) (r : PortRec) : r.Stands (tickRec n r) := by
  have guard : (tickRec n r).guard = r.guard := by
    unfold tickRec
    split
    · split <;> rfl
    · split <;> rfl
    all_goals rfl
  obtain ⟨role, present, linkUp, -⟩ := tickRec_table n r
  exact ⟨role, present, linkUp, Or.inl guard⟩

/-- An interval event, which comes in no START, adds nothing to the tables. -/
theorem thinned_intervalTick {s : State} (running : s.control.mode ≠ .start) : Thinned s (intervalTick s) := by
  have clock : Thinned s (clockTick s) :=
    { Thinned.refl s with idle := fun i => absurd i.2 running }
  have marked (t : State) : Thinned t (meterInterval t) := by
    unfold meterInterval
    dsimp only
    refine Thinned.trans ?_ (.of_frame (frame_set_meter _ _) (by decide))
    exact .of_stands (stands_mapPorts t fun _ r => ⟨rfl, rfl, rfl, Or.inl rfl⟩) (frame_mapPorts _ t) (by decide)
  have host (t : State) : Thinned t (hostTick t) := by
    unfold hostTick
    split
    · exact thinned_set_control t _ id rfl fun i => i.2
    · exact .refl t
  have strobed : Thinned s (strobed s) :=
    ((clock.trans (marked _)).trans (.of_frame (frame_handTx _ _) (by decide))).trans
      (.of_frame (frame_paceTick _) (by decide))
  rw [intervalTick_eq]
  refine ((strobed.trans (thinned_readOpt _)).trans ?_).trans (host _)
  exact .of_stands (stands_mapPorts _ fun _ r => tickRec_stands _ r) (frame_mapPorts _ _) (by decide)

end Sys2Proof.Machine
end

section
/-! SUPPORT. The link events, the absence of a port, role changes, policy and mode, and the requests: each drops what no
longer belongs into the probe list and the two tables (R6, R7, R10 to R13, R42, R70, R71). -/

namespace Sys2Proof.Machine

/-! ### Link events -/

/-- An event at one port that leaves the tables. -/
theorem Thinned.of_port {p : Port} {l : List Part} {s t : State} (h : OnlyChanges l s t)
    (aside : ∀ a ∈ l, a ∉ [Part.probe, .evidence, .control, .clock]) (others : ∀ q, q ≠ p → t.port q = s.port q)
    (fits : (s.port p).Fits → (t.port p).Fits) (role : (t.port p).role = (s.port p).role)
    (link : (s.port p).linkUp = true → (t.port p).linkUp = true) : Thinned s t := by
  have out (a : Part) (mem : a ∈ [Part.probe, .evidence, .control, .clock]) : a ∉ l := fun m => aside a m mem
  have probe : t.probe = s.probe := h .probe (out _ (by decide))
  have evidence : t.evidence = s.evidence := h .evidence (out _ (by decide))
  have control : t.control = s.control := h .control (out _ (by decide))
  have clock : t.clock = s.clock := h .clock (out _ (by decide))
  have links (q : Port) (up : (s.port q).linkUp = true) : (t.port q).linkUp = true := by
    by_cases e : q = p
    · exact e ▸ link (e ▸ up)
    · rw [others q e]; exact up
  have roles (q : Port) : (t.port q).role = (s.port q).role := by
    by_cases e : q = p
    · exact e ▸ role
    · rw [others q e]
  have seat (q : Port) (probed : s.Probed q) : t.Probed q := ⟨links q probed.1, by rw [roles]; exact probed.2⟩
  refine
    { fits := fun f q => ?_
      nconf := fun n => by rw [control]; exact n
      list := by rw [probe]
      listed := fun q _ => seat q
      opt := fun i e entry => ⟨seat _, e, probe ▸ entry, rfl, rfl⟩
      slots := fun i e entry => ⟨seat _, links _, e, evidence ▸ entry, .refl _ e⟩
      round := by rw [clock]
      loading := by rw [control]
      idle := fun i => by rw [control, clock]; exact ⟨i.2, rfl⟩ }
  by_cases e : q = p
  · exact e ▸ fits (f p)
  · rw [others q e]; exact f q

/-- The guard state of a present port fits its link once the link is up. -/
theorem raised_fits {r : PortRec} (present : r.present = true) (h : r.Fits) : r.raised.Fits := by
  unfold PortRec.raised
  split
  · next down =>
    obtain ⟨role, pres, link, -⟩ := (enter_entered ({ r with linkUp := true } : PortRec) .listen).table
    have guard := (enter_spec ({ r with linkUp := true } : PortRec) .listen 0 0).1
    have enabled : ¬ (r.role = .unused ∨ r.present = false) := fun out => by
      have disabled := h.disabled.mpr out
      rw [down] at disabled
      cases disabled
    refine ⟨fun _ => link, fun g => ?_, ⟨fun g => ?_, fun out => ?_⟩, fun gone => ?_⟩
    · rw [guard] at g; cases g
    · rw [guard] at g; cases g
    · rw [role, pres] at out; exact absurd out enabled
    · rw [pres] at gone; exact absurd (present.symm.trans gone) (by decide)
  · next up =>
    exact ⟨fun _ => rfl, fun g => absurd g up, h.disabled, fun gone => absurd (present.symm.trans gone) (by decide)⟩

theorem thinned_linkUpEvent {p : Port} {s : State} (present : (s.port p).present = true) :
    Thinned s (linkUpEvent p s) := by
  have woken (q : Port) : (wake .linkUp p s).port q = s.port q := port_congr (frame_wake _ _ s .ports (by decide)) q
  have raise : OnlyChanges [.ports, .reports, .order] (wake .linkUp p s) (linkUpEvent p s) := by
    have flag : OnlyChanges [.ports, .reports, .order] (wake .linkUp p s)
        ((wake .linkUp p s).modPort p fun r => { r with linkUp := true }) := (frame_modPort _ _ _).mono (by decide)
    unfold linkUpEvent
    dsimp only
    split
    · exact (flag.comp (frame_set_order _ _) (by decide)).comp (frame_goPlain _ _ _ _) (by decide)
    · exact flag.comp (frame_set_order _ _) (by decide)
  have seat := linkUpEvent_seat p s
  refine (thinned_wake .linkUp p s).trans
    (.of_port (p := p) raise (by decide) (fun q hq => ?_) ?_ ?_ fun _ => seat.linkUp)
  · rw [woken, linkUpEvent_port, if_neg hq]
  · rw [woken, linkUpEvent_port, if_pos rfl]; exact raised_fits present
  · rw [woken]; exact seat.role

/-- A port whose link is gone takes its probes and its evidence with it. -/
theorem Thinned.of_cleared {p : Port} {s u : State} (h : OnlyChanges [.ports, .reports, .order] s u)
    (others : ∀ q, q ≠ p → u.port q = s.port q) (fits : (s.port p).Fits → (u.port p).Fits) :
    Thinned s (portCleared p u) := by
  have cleared : Thinned u (portCleared p u) :=
    ((thinned_removeProbes p u).trans (thinned_dropProbe p _)).trans (thinned_withdraw _ _)
  have probe : u.probe = s.probe := h .probe (by decide)
  have evidence : u.evidence = s.evidence := h .evidence (by decide)
  have control : u.control = s.control := h .control (by decide)
  have clock : u.clock = s.clock := h .clock (by decide)
  have seat (q : Port) (ne : q ≠ p) (probed : s.Probed q) : u.Probed q := by
    rw [State.Probed, others q ne]; exact probed
  refine
    { fits := fun f => cleared.fits fun q => ?_
      nconf := fun n => cleared.nconf (by rw [control]; exact n)
      list := probe ▸ cleared.list
      listed := fun q mem probed => ?_
      opt := fun i e entry => ?_
      slots := fun i e entry => ?_
      round := cleared.round.trans (by rw [clock])
      loading := cleared.loading.trans (by rw [control])
      idle := fun i => ?_ }
  · by_cases e : q = p
    · exact e ▸ fits (f p)
    · rw [others q e]; exact f q
  · have ne : q ≠ p := by
      have listed := mem
      rw [(portCleared_list p u).1] at listed
      exact of_decide_eq_true (List.mem_filter.mp listed).2
    exact cleared.listed q mem (seat q ne probed)
  · obtain ⟨keeps, f, old, round, egress⟩ := cleared.opt i e entry
    obtain ⟨-, -, ne⟩ := (portCleared_opt p u i e).mp entry
    exact ⟨fun probed => keeps (seat _ ne probed), f, probe ▸ old, round, egress⟩
  · obtain ⟨keeps, link, f, old, renewed⟩ := cleared.slots i e entry
    obtain ⟨-, -, ne, ne'⟩ := (portCleared_slots p u i e).mp entry
    rw [evidence] at old
    rw [control] at renewed
    exact ⟨fun probed => keeps (seat _ ne probed), fun up => link (by rw [others _ ne']; exact up), f, old, renewed⟩
  · obtain ⟨mode, due⟩ := cleared.idle (by rw [State.Idle, control]; exact i)
    exact ⟨mode, due.trans (by rw [clock])⟩

theorem lowered_fits {r : PortRec} (bmax : Nat) (h : r.Fits) : (r.lowered .down bmax).Fits := by
  obtain ⟨link, guard, ⟨role, present, -, -⟩, -⟩ := lowered_spec .down bmax r
  by_cases disabled : r.guard = .disabled
  · rw [if_pos disabled] at guard
    refine ⟨fun g => ?_, fun _ => link, ⟨fun _ => ?_, fun _ => guard⟩, fun _ => link⟩
    · rw [guard] at g; cases g
    · rw [role, present]; exact h.disabled.mp disabled
  · rw [if_neg disabled] at guard
    refine ⟨fun g => ?_, fun _ => link, ⟨fun g => ?_, fun out => ?_⟩, fun _ => link⟩
    · rw [guard] at g; cases g
    · rw [guard] at g; cases g
    · rw [role, present] at out; exact absurd (h.disabled.mpr out) disabled

/-- The guard state of an absent port without link is DISABLED. -/
theorem absent_fits {r : PortRec} (present : r.present = false) (link : r.linkUp = false)
    (guard : r.guard = .disabled) : r.Fits := by
  refine ⟨fun g => ?_, fun _ => link, ⟨fun _ => Or.inr present, fun _ => guard⟩, fun _ => link⟩
  rw [guard] at g
  cases g

theorem thinned_linkDownEvent (p : Port) (s : State) : Thinned s (linkDownEvent p s) := by
  rw [linkDownEvent, linkDownTo_eq]
  refine .of_cleared (frame_portDown _ _ p s) (fun q ne => by rw [portDown_port, if_neg ne]) fun h => ?_
  rw [portDown_port, if_pos rfl]
  exact lowered_fits _ h

theorem thinned_linkReport (p : Port) (up : Bool) (s : State) : Thinned s (linkReport p up s) := by
  unfold linkReport
  split
  · next report =>
    split
    · exact thinned_linkUpEvent report.1
    · exact thinned_linkDownEvent p s
  · exact .refl s

theorem thinned_absence (p : Port) (s : State) : Thinned s (absence p s) := by
  have absented : OnlyChanges [.ports, .reports, .order] s (s.modPort p PortRec.absented) :=
    (frame_modPort p _ s).mono (by decide)
  have self : (s.modPort p PortRec.absented).port p = (s.port p).absented := port_modPort_self ..
  have other (q : Port) (ne : q ≠ p) : (s.modPort p PortRec.absented).port q = s.port q := port_modPort_ne s _ ne
  obtain ⟨absent, link, guard⟩ := absented_absent (s.port p)
  rw [absence_eq]
  split
  · rw [linkDownTo_eq]
    refine .of_cleared (absented.comp (frame_portDown _ _ p _) fun _ h => h)
      (fun q ne => by rw [portDown_port, if_neg ne, other q ne]) fun _ => ?_
    rw [portDown_port, if_pos rfl, self]
    have low := lowered_spec .disabled ((s.modPort p PortRec.absented).rowAt p).bmax (s.port p).absented
    exact absent_fits (absent.lowered _ _).present low.linkUp (low.guard.trans (ite_self _))
  · next unlinked =>
    have down : (s.port p).absented.linkUp = false := link.trans (Bool.eq_false_iff.mpr unlinked)
    split
    · next disabled =>
      refine .of_port absented (by decide) other (fun _ => ?_) ?_ fun up => absurd up unlinked
      · rw [self]; exact absent_fits absent.present down (guard.trans disabled)
      · rw [self]; exact absent.role
    · have e := enter_entered (s.port p).absented .disabled
      have stands : (goPlain p .disabled .absent (s.modPort p PortRec.absented)).port p =
          (s.port p).absented.enter .disabled 0 0 := by rw [goPlain_port, if_pos rfl, self]
      obtain ⟨role, present, linkUp, -⟩ := e.table
      refine .of_port (p := p) (absented.comp (frame_goPlain _ _ _ _) (by decide)) (by decide) (fun q ne => ?_)
        (fun _ => ?_) ?_ fun up => absurd up unlinked
      · rw [goPlain_port, if_neg ne, other q ne]
      · rw [stands]; exact absent_fits (absent.enter _).present (linkUp.trans down) e.guard
      · rw [stands]; exact role.trans absent.role

/-! ### Role changes -/

/-- The guard state that the role rule gives a port fits its new role. -/
theorem ruled_fits (new : Role) {r : PortRec} (h : r.Fits) : (r.ruled new).Fits := by
  cases move : ruleMove new r with
  | none =>
    rw [ruled_none move]
    have disabled : r.guard = .disabled ↔ new = .unused ∨ r.present = false := by
      unfold ruleMove at move
      split at move
      · next absent => exact ⟨fun _ => Or.inr absent, fun _ => h.disabled.mpr (Or.inr absent)⟩
      · next present =>
        split at move
        · next unused =>
          split at move
          · next out => exact ⟨fun _ => Or.inl unused, fun _ => out⟩
          · cases move
        · next guarded =>
          split at move
          · cases move
          · next seated =>
            rw [h.disabled]
            simp [guarded, seated, present]
    exact ⟨h.linked, h.down, disabled, h.absent⟩
  | some g =>
    rw [ruled_some move]
    obtain ⟨role, present, link, -⟩ := (enter_entered ({ r with role := new } : PortRec) g).table
    have guard := (enter_spec ({ r with role := new } : PortRec) g 0 0).1
    have rule : r.present = true ∧
        (g = .disabled ∧ new = .unused ∨
          new ≠ .unused ∧ (g = .listen ∧ r.linkUp = true ∨ g = .down ∧ r.linkUp = false)) := by
      unfold ruleMove at move
      split at move
      · cases move
      · next here =>
        refine ⟨by simpa using here, ?_⟩
        split at move
        · next unused =>
          split at move
          · cases move
          · cases move; exact Or.inl ⟨rfl, unused⟩
        · next guarded =>
          refine Or.inr ⟨guarded, ?_⟩
          split at move
          · cases move
            cases r.linkUp
            · exact Or.inr ⟨rfl, rfl⟩
            · exact Or.inl ⟨rfl, rfl⟩
          · split at move
            · next blocked => cases move; exact Or.inl ⟨rfl, h.linked (by rw [blocked.2]; rfl)⟩
            · cases move
    obtain ⟨here, ⟨rfl, unused⟩ | ⟨guarded, ⟨rfl, up⟩ | ⟨rfl, down⟩⟩⟩ := rule
    all_goals
      refine ⟨fun l => ?_, fun d => ?_, ?_, fun a => absurd ((here.symm.trans present.symm).trans a) (by decide)⟩
    · rw [guard] at l; cases l
    · rw [guard] at d; cases d
    · rw [guard, role]; exact iff_of_true rfl (Or.inl unused)
    · exact link.trans up
    · rw [guard] at d; cases d
    · rw [guard, role, present]; simp [guarded, here]
    · rw [guard] at l; cases l
    · exact link.trans down
    · rw [guard, role, present]; simp [guarded, here]

theorem reseated_stands (q : Policy) (old new : Role) (r : PortRec) : r.Stands (r.reseated q old new) := by
  obtain ⟨role, present, linkUp, guard⟩ := deriveWanted_stands ({ r with override := .noOverride } : PortRec)
  unfold PortRec.reseated meterRole
  dsimp only
  split
  · exact ⟨role, present, linkUp, guard⟩
  · split <;> exact ⟨role, present, linkUp, guard⟩

theorem stands_roleStep2 (old new : Role) (p : Port) (s : State) : Stands s (roleStep2 old new p s) := by
  intro q
  have withdrawn := (goneAtMost_withdraw (involves p) s).stands q
  rw [roleStep2_port]
  split
  · next e => subst e; exact withdrawn.trans (reseated_stands _ _ _ _)
  · exact withdrawn

theorem stands_seatAll (old table : Port → Role) (l : List Port) (s : State) : Stands s (seatAll old table l s) := by
  induction l generalizing s with
  | nil => exact .refl s
  | cons p l ih => exact (stands_roleStep2 _ _ p s).trans (ih _)

/-- Step 2 drops a port from the probe list if its new role is not probed, and adds none. -/
theorem roleStep2_list (old new : Role) (p : Port) (s : State) :
    (roleStep2 old new p s).probe.list.Sublist s.probe.list ∧
      (p ∈ (roleStep2 old new p s).probe.list → new ≠ .uplink ∧ new ≠ .unused) := by
  have list : (removeProbes p (withdraw (involves p) s)).probe.list = s.probe.list := by
    rw [removeProbes]
    simp only [eraseOpt, (readOpt_list _).1]
    rw [show (withdraw (involves p) s).probe = s.probe from frame_withdraw _ s .probe (by decide)]
  have probe : (roleStep2 old new p s).probe =
      (if new = .uplink ∨ new = .unused then dropProbe p (removeProbes p (withdraw (involves p) s))
        else removeProbes p (withdraw (involves p) s)).probe := rfl
  rw [probe]
  split
  · simp only [dropProbe, list]
    exact ⟨List.filter_sublist, fun mem => absurd rfl (of_decide_eq_true (List.mem_filter.mp mem).2)⟩
  · next keeps =>
    rw [list]
    exact ⟨List.Sublist.refl _, fun _ => not_or.mp keeps⟩

theorem seatAll_list (old table : Port → Role) (l : List Port) (s : State) :
    (seatAll old table l s).probe.list.Sublist s.probe.list ∧
      ∀ p ∈ l, p ∈ (seatAll old table l s).probe.list → table p ≠ .uplink ∧ table p ≠ .unused := by
  induction l generalizing s with
  | nil => exact ⟨List.Sublist.refl _, nofun⟩
  | cons p l ih =>
    obtain ⟨sub, kept⟩ := ih (roleStep2 (old p) (table p) p s)
    obtain ⟨sub', kept'⟩ := roleStep2_list (old p) (table p) p s
    refine ⟨sub.trans sub', List.forall_mem_cons.mpr ⟨fun mem => kept' (sub.subset mem), kept⟩⟩

theorem probed_role {r : Role} (h : r ≠ .uplink ∧ r ≠ .unused) : r.probed = true := by
  revert h; cases r <;> simp [Role.probed]

theorem thinned_roleChange (table : Port → Role) (s : State) : Thinned s (roleChange table s) := by
  have frame := frame_roleChange table s
  have ruled := frame_afterRules table s
  have control : (roleChange table s).control = s.control := frame .control (by decide)
  have clock : (roleChange table s).clock = s.clock := frame .clock (by decide)
  have links (q : Port) : ((roleChange table s).port q).linkUp = (s.port q).linkUp :=
    (roleChange_all table s q).2.table.2
  have seat (q : Port) (same : ¬ Changed table s q) (probed : s.Probed q) : (roleChange table s).Probed q :=
    ⟨(links q).trans probed.1, by rw [(roleChange_unchanged same).role]; exact probed.2⟩
  have list := seatAll_list (fun p => (s.port p).role) table (changedList table s) (afterRules table s)
  rw [← roleChange_eq, show (afterRules table s).probe = s.probe from ruled .probe (by decide)] at list
  refine
    { fits := fun f p => ?_
      nconf := fun n => by rw [control]; exact n
      list := list.1
      listed := fun q mem probed => ?_
      opt := fun i e entry => ?_
      slots := fun i e entry => ?_
      round := by rw [clock]
      loading := by rw [control]
      idle := fun i => by rw [control, clock]; exact ⟨i.2, rfl⟩ }
  · have seated := stands_seatAll (fun p => (s.port p).role) table (changedList table s) (afterRules table s) p
    rw [← roleChange_eq] at seated
    refine seated.fits ?_
    by_cases changed : Changed table s p
    · rw [afterRules_changed changed]; exact ruled_fits _ (f p)
    · rw [afterRules_unchanged changed]; exact f p
  · by_cases changed : Changed table s q
    · refine ⟨(links q).trans probed.1, ?_⟩
      rw [(roleChange_all table s q).1]
      exact probed_role (list.2 q (mem_changedList.mpr changed) mem)
    · exact seat q changed probed
  · refine ⟨fun probed => ?_, e, ?_, rfl, rfl⟩
    · exact seat _ (fun changed => roleChange_opt changed entry rfl) probed
    · rw [roleChange_eq] at entry
      rw [← show (afterRules table s).probe = s.probe from ruled .probe (by decide)]
      exact (seatAll_opt entry).1
  · refine ⟨fun probed => ?_, fun up => (links _).trans up, e, ?_, .refl _ e⟩
    · exact seat _ (fun changed => (roleChange_slots changed entry).1 rfl) probed
    · rw [roleChange_eq] at entry
      rw [← show (afterRules table s).evidence = s.evidence from ruled .evidence (by decide)]
      exact (seatAll_slots entry).1

/-! ### Policy and mode -/

theorem thinned_applyPolicy {q : Policy} {s : State} (nconf : s.control.policy.nCONF ≤ 7 → q.nCONF ≤ 7) :
    Thinned s (applyPolicy q s) := by
  unfold applyPolicy
  dsimp only
  have clamped : Thinned s (s.mapPorts fun _ r => clampRec s.control.policy q r) :=
    .of_stands (stands_mapPorts s fun _ _ => ⟨rfl, rfl, rfl, Or.inl rfl⟩) (frame_mapPorts _ s) (by decide)
  refine clamped.trans (thinned_set_control _ _ (fun n => nconf ?_) rfl fun i => i.2)
  rw [mapPorts_control] at n
  exact n

theorem nCONF_of_settled {q : Policy} (h : q.settle = q) : q.nCONF ≤ 7 := by
  have range : clampTo 1 7 q.nCONF = q.nCONF := congrArg Policy.nCONF (Policy.inRange_of_settled h)
  unfold clampTo at range
  omega

/-- SETP leaves nCONF, or clamps what it writes to it. -/
theorem setp_nCONF (pairs : List (Byte × Param × Nat)) {q : Policy} (h : q.nCONF ≤ 7) :
    (setpOwn pairs q).crossClamp.nCONF ≤ 7 := by
  show (setpOwn pairs q).nCONF ≤ 7
  induction pairs generalizing q with
  | nil => exact h
  | cons x l ih =>
    refine ih ?_
    obtain ⟨-, p, v⟩ := x
    show (q.put p (p.clamp v)).nCONF ≤ 7
    cases p with
    | nCONF => show clampTo 1 7 v ≤ 7; unfold clampTo; omega
    | row role f => cases role <;> exact h
    | _ => exact h

theorem thinned_clearOverrides (s : State) : Thinned s (clearOverrides s) :=
  .of_stands
    (stands_mapPorts s fun _ r =>
      have ⟨role, present, linkUp, guard⟩ := deriveWanted_stands ({ r with override := .noOverride } : PortRec)
      ⟨role, present, linkUp, guard⟩)
    (frame_clearOverrides s) (by decide)

theorem thinned_enterAutonomous (c : ModeCause) {s : State} (running : ¬ s.Idle) : Thinned s (enterAutonomous c s) := by
  unfold enterAutonomous
  refine Thinned.trans ?_ (thinned_roleChange _ _)
  refine Thinned.trans ?_ (thinned_applyPolicy fun _ => nCONF_of_settled (SettingsStore.readPolicy_settled _))
  exact (thinned_setMode .autonomous c running).trans (thinned_clearOverrides _)

theorem thinned_hostLostEnds (s : State) : Thinned s (hostLostEnds s) := by
  unfold hostLostEnds
  split
  · next lost => exact thinned_enterAutonomous _ fun i => by rw [i.2] at lost; cases lost.2
  · exact .refl s

/-! ### Requests -/

theorem thinned_takeFrame (body : List Byte) (s : State) : Thinned s (takeFrame body s) := by
  have taken (t : State) (m : ManagementLine) :
      Thinned t { t with mgmt := m, control := { t.control with hostLost := 0, hostLostDue := false } } :=
    Thinned.trans (.of_frame (frame_set_mgmt t m) (by decide)) (thinned_set_control _ _ id rfl fun i => i.2)
  exact (thinned_hostLostEnds s).trans (taken _ _)

theorem thinned_modeTo (m : Mode) {s : State} (running : ¬ s.Idle) : Thinned s (modeTo m s).state := by
  unfold modeTo
  split
  · exact .refl s
  · split
    · exact thinned_enterAutonomous _ running
    · exact thinned_setMode _ _ running
    · split
      · exact thinned_setMode _ _ running
      · exact .refl s
    · exact .refl s

theorem thinned_setOverride (p : Port) (o : Override) (s : State) : Thinned s (setOverride p o s) :=
  thinned_modPort
    (have ⟨role, present, linkUp, guard⟩ := deriveWanted_stands ({ s.port p with override := o } : PortRec)
     ⟨role, present, linkUp, guard⟩)

theorem thinned_lessonRefill (s : State) : Thinned s (lessonRefill s) := by
  have frame : OnlyChanges [.ports] s (lessonRefill s) := by
    unfold lessonRefill
    with_reducible exact frame_mapPorts _ s
  refine .of_stands (fun p => ?_) frame (by decide)
  rw [lessonRefill_port]
  split <;> exact ⟨rfl, rfl, rfl, Or.inl rfl⟩

theorem thinned_clearCounts (s : State) : Thinned s (clearCounts s) :=
  { Thinned.refl s with }

/-- What an owning block answers to a request that the mode serves; START serves STAT alone. -/
theorem thinned_act (k : RequestKind) (fields : List Byte) {s : State} (served : s.control.mode.serves k = true) :
    Thinned s (k.act fields s).state := by
  have frame := frame_requestAct k fields s
  cases k with
  | stat =>
    show Thinned s (doStat fields s).state
    unfold doStat
    split
    · exact .refl s
    · split
      · exact .refl s
      · split
        · exact thinned_clearCounts s
        · exact .refl s
    · exact .refl s
  | mode =>
    have running : ¬ s.Idle := fun i => by rw [i.2] at served; cases served
    show Thinned s (doMode fields s).state
    unfold doMode
    split
    · split
      · exact thinned_modeTo _ running
      · exact .refl s
    · exact .refl s
  | setp =>
    show Thinned s (doSetp fields s).state
    unfold doSetp
    split
    · exact thinned_applyPolicy (setp_nCONF _)
    · exact .refl s
  | roles =>
    show Thinned s (doRoles fields s).state
    unfold doRoles
    split
    · exact .refl s
    · split
      · exact .refl s
      · split
        · unfold rolesCodes
          split
          · exact .refl s
          · exact thinned_roleChange _ s
        · exact .refl s
  | ovrd =>
    show Thinned s (doOvrd fields s).state
    unfold doOvrd
    split
    · split
      · unfold ovrdPort
        split
        · exact .refl s
        · exact thinned_setOverride _ _ s
      · exact .refl s
    · exact .refl s
  | lesson =>
    show Thinned s (doLesson fields s).state
    unfold doLesson
    split
    · exact thinned_lessonRefill s
    · exact .refl s
  | _ => exact .of_frame frame (by decide)

theorem thinned_ifServed (k : RequestKind) (fields : List Byte) (s : State) :
    Thinned s (ifServed k (k.act fields) s).state := by
  unfold ifServed
  split
  · next served => exact thinned_act k fields served
  · exact .refl s

theorem thinned_sendReply (kind : Byte) (a : Answer) : Thinned a.state (sendReply kind a) :=
  .of_frame (frame_sendReply kind a) (by decide)

/-- A request frame, carried out or refused as busy. -/
theorem thinned_request (kind : Byte) (fields : List Byte) {act : State → Answer} (acts : ∀ t, Thinned t (act t).state)
    (s : State) : Thinned s (request kind fields act s) := by
  unfold request
  split
  · split
    · exact ((thinned_takeFrame _ s).trans (acts _)).trans (thinned_sendReply _ _)
    · exact .of_frame (frame_frameBusy kind s) (by decide)
  · exact .refl s

theorem thinned_serve (body : List Byte) (s : State) : Thinned s (serve body s) := by
  unfold serve
  split
  · exact .refl s
  · next kind fields =>
    refine ((thinned_takeFrame (kind :: fields) s).trans ?_).trans (thinned_sendReply _ _)
    unfold answerTo
    split
    · exact thinned_ifServed _ _ _
    · exact .refl _

theorem thinned_sampleKey (level : Bool) (s : State) : Thinned s (sampleKey level s) :=
  .of_frame (frame_sampleKey level s) (by decide)

/-- A character, with the judgement of the frame it may complete. -/
theorem thinned_character (b : Byte) (stop : CharacterEnd) (s : State) :
    Thinned s (judgeComplete (receiveChar b stop.framingFault (sampleKey stop.key s))) := by
  have received : Thinned s (receiveChar b stop.framingFault (sampleKey stop.key s)) :=
    (thinned_sampleKey _ s).trans (.of_frame (frame_receiveChar _ _ _) (by decide))
  have judged (f : Frame) (t : State) : Thinned t (judgeFrame f t) := by
    unfold judgeFrame
    split
    · exact .of_frame (frame_frameCheckFails _) (by decide)
    · split
      · exact thinned_serve _ _
      · exact .of_frame (frame_frameBusy _ _) (by decide)
  unfold judgeComplete
  split
  · exact received
  · exact received.trans (Thinned.trans (.of_frame (frame_set_mgmt _ _) (by decide)) (judged _ _))

end Sys2Proof.Machine
end

section
/-! SUPPORT. The events that add a probe or evidence: a granted probe, a round start and a sighting; and the two that
empty the tables, a reset and the end of the load (R40 to R44, R47, R60, R140, R142). -/

namespace Sys2Proof.Machine

/-! ### Empty tables -/

/-- Empty tables fit. -/
theorem TablesFit.of_empty {s : State} (guard : ∀ p, (s.port p).Fits) (nconf : s.control.policy.nCONF ≤ 7)
    (list : s.probe.list = []) (opt : ∀ i, s.probe.opt.get i = none) (slots : ∀ i, s.evidence.slots.get i = none)
    (loading : s.control.loading = true →
      s.control.mode = .start ∧ s.clock.roundDue = false ∧ s.clock.round = none) : TablesFit s where
  guard := guard
  nconf := nconf
  sorted := by rw [list]; exact List.Pairwise.nil
  listed p mem := by rw [list] at mem; cases mem
  fresh p mem := by rw [list] at mem; cases mem
  optPort i e entry := by rw [opt i] at entry; cases entry
  optRound i e entry := by rw [opt i] at entry; cases entry
  optOnce i j e f entry := by rw [opt i] at entry; cases entry
  noRound _ := ⟨list, opt⟩
  letCount i e entry := by rw [slots i] at entry; cases entry
  letPort i e entry := by rw [slots i] at entry; cases entry
  letOnce i j e f entry := by rw [slots i] at entry; cases entry
  loading l := by
    obtain ⟨mode, due, round⟩ := loading l
    exact ⟨mode, due, round, slots⟩

theorem tablesFit_resetTo (c : ResetCause) (baud : Bool) (s : State) : TablesFit (resetTo c baud s) :=
  .of_empty (fun p => by rw [resetTo_port]; exact startRecord_fits _ _) (show factoryPolicy.nCONF ≤ 7 by decide) rfl
    reset_opt reset_slots fun _ => ⟨rfl, rfl, rfl⟩

theorem tablesFit_loadDone {s : State} (loading : s.control.loading = true) (h : TablesFit s) :
    TablesFit (loadDone s) := by
  obtain ⟨-, -, round, slots⟩ := h.loading loading
  obtain ⟨list, opt⟩ := h.noRound round
  exact .of_empty (fun p => by rw [loadDone_port]; exact startRecord_fits _ _)
    (nCONF_of_settled (SettingsStore.readPolicy_settled _)) list opt slots nofun

/-! ### Sightings -/

/-- A new entry of the LET, for a pair that has none, at a probed egress with link and an ingress with link. -/
theorem tablesFit_newEntry {i : Fin 16} {x y : Port} {s : State} (h : TablesFit s) (loaded : s.control.loading = false)
    (new : ∀ j f, s.evidence.slots.get j = some f → ¬(f.egress = x ∧ f.ingress = y)) (egress : s.Probed x)
    (ingress : (s.port y).linkUp = true) : TablesFit (writeLet i (newEntry x y s) s) := by
  have old {j : Fin 16} {e : LetEntry} (entry : (writeLet i (newEntry x y s) s).evidence.slots.get j = some e) :
      j = i ∧ e = newEntry x y s ∨ s.evidence.slots.get j = some e := by
    rw [writeLet_get] at entry
    split at entry
    · next same => exact Or.inl ⟨same, (Option.some.inj entry).symm⟩
    · exact Or.inr entry
  exact
    { h with
      letCount := fun j e entry => by
        rcases old entry with ⟨-, rfl⟩ | entry
        · exact ⟨Nat.le_refl 1, show 1 ≤ 7 by decide⟩
        · exact h.letCount j e entry
      letPort := fun j e entry => by
        rcases old entry with ⟨-, rfl⟩ | entry
        · exact ⟨egress.1, ingress, egress.2⟩
        · exact h.letPort j e entry
      letOnce := fun j k e f ej fk sameX sameY => by
        rcases old ej with ⟨rfl, rfl⟩ | oldE <;> rcases old fk with ⟨rfl, rfl⟩ | oldF
        · rfl
        · exact absurd ⟨sameX.symm, sameY.symm⟩ (new k f oldF)
        · exact absurd ⟨sameX, sameY⟩ (new j e oldE)
        · exact h.letOnce j k e f oldE oldF sameX sameY
      loading := fun l => absurd (loaded.symm.trans l) (by decide) }

theorem tablesFit_createIn {i : Fin 16} {x y : Port} (v : Option Port) {s : State} (h : TablesFit s)
    (loaded : s.control.loading = false)
    (new : ∀ j f, s.evidence.slots.get j = some f → ¬(f.egress = x ∧ f.ingress = y)) (egress : s.Probed x)
    (ingress : (s.port y).linkUp = true) : TablesFit (createIn i x y v s) :=
  ((thinned_victims v _ _).trans (thinned_confirmCheck i _)).tablesFit (tablesFit_newEntry h loaded new egress ingress)

theorem tablesFit_createEntry {x y : Port} {s : State} (h : TablesFit s) (loaded : s.control.loading = false)
    (new : ∀ j f, s.evidence.slots.get j = some f → ¬(f.egress = x ∧ f.ingress = y)) (egress : s.Probed x)
    (ingress : (s.port y).linkUp = true) : TablesFit (createEntry x y s) := by
  have evicted : TablesFit { s with evidence := { s.evidence with evictions := satInc s.evidence.evictions } } :=
    { h with }
  unfold createEntry
  split
  · exact tablesFit_createIn none h loaded new egress ingress
  · split
    · exact h
    · exact tablesFit_createIn _ evicted loaded new egress ingress

theorem tablesFit_sighting {x y : Port} {s : State} (h : TablesFit s) (loaded : s.control.loading = false)
    (egress : s.Probed x) (ingress : (s.port y).linkUp = true) : TablesFit (sighting x y s) := by
  have read := (thinned_readLet s).tablesFit h
  refine (thinned_settleSweep _).tablesFit ?_
  split
  · exact (thinned_creditSlot _ _).tablesFit read
  · next new =>
    refine tablesFit_createEntry read ((thinned_readLet s).loading.trans loaded) (findLet_none.mp new) ?_ ?_
    · rw [State.Probed, readLet_port]; exact egress
    · rw [readLet_port]; exact ingress

/-- A catch at an ingress with link whose entry is found. -/
theorem tablesFit_catchFound {i : Fin 32} {y : Port} {s : State} (h : TablesFit s) (loaded : s.control.loading = false)
    (ingress : (s.port y).linkUp = true) : TablesFit (catchFound i y s) := by
  have woken := thinned_wake .caught y s
  have same (p : Port) : (wake .caught y s).port p = s.port p := port_congr (frame_wake _ _ s .ports (by decide)) p
  have probe : (wake .caught y s).probe = s.probe := frame_wake _ _ s .probe (by decide)
  unfold catchFound
  split
  · exact h
  · next e entry =>
    dsimp only
    split
    · exact woken.tablesFit h
    · have caught : Thinned (wake .caught y s)
          (writeOpt i { e with caught := insertPort y e.caught } (wake .caught y s)) :=
        thinned_writeOpt (f := e) (by rw [probe]; exact entry) rfl rfl
      have written (p : Port) :
          (writeOpt i { e with caught := insertPort y e.caught } (wake .caught y s)).port p = s.port p :=
        (port_congr rfl p).trans (same p)
      refine tablesFit_sighting (caught.tablesFit (woken.tablesFit h)) (woken.loading.trans loaded) ?_ ?_
      · rw [State.Probed, written]; exact h.optPort i e entry
      · rw [written]; exact ingress

theorem tablesFit_catchAtProbe {y x : PortField} {r : Round} {d : Identity} {s : State} (h : TablesFit s)
    (loaded : s.control.loading = false) : TablesFit (catchAtProbe y x r d s) := by
  have counted (t : State) (u : ProbeUnit) (list : u.list = t.probe.list) (opt : u.opt = t.probe.opt)
      (ht : TablesFit t) : TablesFit { t with probe := u } := (thinned_probe_counts t u list opt).tablesFit ht
  have read := (thinned_readOpt s).tablesFit h
  unfold catchAtProbe
  split
  · exact counted s _ rfl rfl h
  · split
    · next xp yp _ _ =>
      unfold catchOn
      split
      · next linked =>
        dsimp only
        split
        · exact counted _ _ rfl rfl read
        · refine tablesFit_catchFound read ((thinned_readOpt s).loading.trans loaded) ?_
          rw [port_congr (frame_readOpt s .ports (by decide))]
          exact (Bool.and_eq_true _ _ ▸ linked).2
      · exact counted s _ rfl rfl h
    · exact counted s _ rfl rfl h

/-! ### Granted probes -/

/-- The head of the list is not yet a probe of its round, so its entry is the only one of its round and egress. -/
theorem tablesFit_newProbe {i : Fin 32} {p : Port} {s : State} (h : TablesFit s)
    (head : s.probe.list = p :: s.probe.list.tail) :
    TablesFit (writeOpt i ⟨s.roundNow, p, .sending, [], true⟩
      { s with probe := { s.probe with list := s.probe.list.tail } }) := by
  have mem : p ∈ s.probe.list := by rw [head]; exact List.mem_cons_self
  have rest {q : Port} (m : q ∈ s.probe.list.tail) : q ∈ s.probe.list := List.mem_of_mem_tail m
  have sorted := h.sorted
  rw [head, List.pairwise_cons] at sorted
  obtain ⟨first, sorted⟩ := sorted
  have old {j : Fin 32} {e : OptEntry}
      (entry : (writeOpt i ⟨s.roundNow, p, .sending, [], true⟩
        { s with probe := { s.probe with list := s.probe.list.tail } }).probe.opt.get j = some e) :
      j = i ∧ e = ⟨s.roundNow, p, .sending, [], true⟩ ∨ s.probe.opt.get j = some e := by
    rw [writeOpt_get] at entry
    split at entry
    · next same => exact Or.inl ⟨same, (Option.some.inj entry).symm⟩
    · exact Or.inr entry
  exact
    { h with
      sorted := sorted
      listed := fun q m => h.listed q (rest m)
      fresh := fun q m j e entry egress => by
        rcases old entry with ⟨-, rfl⟩ | entry
        · obtain rfl : p = q := egress
          exact absurd (first p m) (lt_irrefl p)
        · exact h.fresh q (rest m) j e entry egress
      optPort := fun j e entry => by
        rcases old entry with ⟨-, rfl⟩ | entry
        · exact h.listed p mem
        · exact h.optPort j e entry
      optRound := fun j e entry => by
        rcases old entry with ⟨-, rfl⟩ | entry
        · exact Or.inl rfl
        · exact h.optRound j e entry
      optOnce := fun j k e f ej fk round egress => by
        rcases old ej with ⟨rfl, rfl⟩ | oldE <;> rcases old fk with ⟨rfl, rfl⟩ | oldF
        · rfl
        · exact absurd round.symm (h.fresh p mem k f oldF egress.symm)
        · exact absurd round (h.fresh p mem j e oldE egress)
        · exact h.optOnce j k e f oldE oldF round egress
      noRound := fun none => by
        rw [(h.noRound none).1] at mem
        cases mem }

theorem tablesFit_grantProbe {p : Port} {s : State} (h : TablesFit s) (head : s.probe.list = p :: s.probe.list.tail) :
    TablesFit (grantProbe p s) := by
  have handed (t : State) (a : Arbiter) (g : GuardLink) (r : OutRecord) :
      Thinned t (handTx r { t with arbiter := a, glink := g }) :=
    (Thinned.of_frame (frame_set_arbiter t a) (by decide)).trans
      ((Thinned.of_frame (frame_set_glink _ g) (by decide)).trans (.of_frame (frame_handTx r _) (by decide)))
  have skipped : Thinned s (skipProbe { s with probe := { s.probe with list := s.probe.list.tail } }) :=
    .of_probe ((frame_set_probe s _).comp (frame_skipProbe _) fun _ h => h) (by decide)
      (List.tail_sublist s.probe.list) fun i e entry => ⟨e, entry, rfl, rfl⟩
  unfold grantProbe
  dsimp only
  split
  · exact skipped.tablesFit h
  · next i _ => exact (handed _ _ _ _).tablesFit (tablesFit_newProbe (i := i) h head)

/-! ### Rounds -/

theorem expireSlot_get (i j : Fin 32) (s : State) :
    (expireSlot i s).probe.opt.get j = if j = i then none else s.probe.opt.get j := by
  unfold expireSlot
  split
  · next free =>
    split
    · next same => rw [same, free]
    · rfl
  · next e _ =>
    have gone (c : LetEntry → Bool) : (withdraw c s).probe = s.probe := frame_withdraw c s .probe (by decide)
    have booked (p : Port) (quiet : Bool) (t : State) : (listenBook p quiet t).probe = t.probe :=
      frame_listenBook p quiet t .probe (by decide)
    dsimp only
    rw [clearOpt_get]
    split
    · rfl
    · split
      · rw [booked, gone]
      · rw [gone]

theorem expireAll_get (l : List (Fin 32)) (j : Fin 32) (s : State) :
    (l.foldl (fun u i => expireSlot i u) s).probe.opt.get j = if j ∈ l then none else s.probe.opt.get j := by
  induction l generalizing s with
  | nil => rfl
  | cons i l ih =>
    rw [List.foldl_cons, ih, expireSlot_get]
    by_cases here : j = i <;> by_cases later : j ∈ l <;> simp [here, later]

/-- The order of expiries lists the occupied slots it is given. -/
theorem mem_expiryOrder {l : List (Fin 32)} {i : Fin 32} {e : OptEntry} {s : State}
    (entry : s.probe.opt.get i = some e) (mem : i ∈ l) : i ∈ expiryOrder l s := by
  refine List.mem_flatMap.mpr ⟨e.egress, mem_allPorts _, ?_⟩
  have mine : i ∈ l.filter fun i =>
      match s.probe.opt.get i with
      | some f => decide (f.egress = e.egress)
      | none => false := List.mem_filter.mpr ⟨mem, by simp only [entry, decide_true]⟩
  by_cases current : some e.round = s.clock.round
  · exact List.mem_append_right _ (List.mem_filter.mpr ⟨mine, by simp only [entry, current, decide_true]⟩)
  · exact List.mem_append_left _
      (List.mem_filter.mpr ⟨mine, by simp only [entry, current, decide_false, Bool.not_false]⟩)

/-- No entry older than the round before outlasts step 3 of a round start (R40). -/
theorem dealOld_recent {r : Round} {s : State} {i : Fin 32} {e : OptEntry}
    (entry : (dealOld r s).probe.opt.get i = some e) : e.older r = false := by
  unfold dealOld at entry
  dsimp only at entry
  generalize eraseOpt (fun e => e.older r && decide (e.phase = .sending)) (readOpt s) = t at entry
  rw [expireAll_get] at entry
  split at entry
  · cases entry
  · next spared =>
    refine Bool.eq_false_iff.mpr fun old => spared (mem_expiryOrder entry (List.mem_filter.mpr ?_))
    exact ⟨List.mem_finRange i, by simp only [entry, old]⟩

/-- The entries after step 3 of a round start are of the round or the one before. -/
theorem older_eq_false {r : Round} {e : OptEntry} (h : e.older r = false) : e.round = r ∨ e.round + 1 = r := by
  have recent := of_decide_eq_false h
  rw [not_and_or, not_not, not_not] at recent
  exact recent.imp_right fun before => by rw [before]; bv_omega

/-- A port eligible for probing has link and a probed role, its guard state fitting. -/
theorem probed_of_eligible {s : State} {p : Port} (fits : (s.port p).Fits) (mem : p ∈ eligibleProbes s) :
    s.Probed p := by
  unfold eligibleProbes at mem
  split at mem
  · have probeable := (List.mem_filter.mp mem).2
    simp only [PortRec.probeable, Bool.and_eq_true] at probeable
    exact ⟨fits.linked (by tauto), by tauto⟩
  · cases mem

theorem eligibleProbes_sorted (s : State) : (eligibleProbes s).Pairwise (· < ·) := by
  unfold eligibleProbes
  split
  · exact allPorts_ascending.filter _
  · exact List.Pairwise.nil

/-- The state in which a round start deals with older entries: the round is the next one, and the list is empty. -/
def roundOpened (s : State) : State :=
  { s with
    clock :=
      { s.clock with
        round := some (nextRound s), timer := 0, base := some s.control.policy.tRND, roundDue := false }
    probe :=
      { s.probe with
        skipped := min Config.countMax (s.probe.skipped + s.probe.list.length)
        list := [] } }

/-- The list made anew (R40 step 4). -/
def State.relisted (s : State) : State := { s with probe := { s.probe with list := eligibleProbes s } }

theorem roundSteps_eq (s : State) : roundSteps s = (dealOld (nextRound s) (roundOpened s)).relisted := by
  unfold roundSteps roundOpened State.relisted
  with_reducible rfl

/-- The new list fits the OPT that step 3 of a round start leaves: its entries are of the two rounds before at most, and
those of the earlier one have expired. -/
theorem tablesFit_relisted {s t : State} (h : TablesFit s) (loaded : t.control.loading = false)
    (dealt : Thinned (roundOpened s) t)
    (recent : ∀ i e, t.probe.opt.get i = some e → e.older (nextRound s) = false) : TablesFit t.relisted := by
  have before {i : Fin 32} {e : OptEntry} (entry : t.probe.opt.get i = some e) :
      ∃ f, s.probe.opt.get i = some f ∧ e.round = f.round ∧ e.egress = f.egress := (dealt.opt i e entry).2
  have round : t.clock.round = some (nextRound s) := dealt.round
  have now : t.relisted.roundNow = nextRound s := by
    show t.roundNow = _
    rw [State.roundNow, round]
    rfl
  have opened (p : Port) : (roundOpened s).port p = s.port p := port_congr rfl p
  have fits : ∀ p, (t.port p).Fits := dealt.fits fun p => by rw [opened]; exact h.guard p
  have seat {p : Port} (k : (roundOpened s).Probed p → t.Probed p) (probed : s.Probed p) : t.Probed p :=
    k (by rw [State.Probed, opened]; exact probed)
  have fresh {i : Fin 32} {e : OptEntry} (entry : s.probe.opt.get i = some e) : e.round ≠ nextRound s := by
    unfold nextRound
    split
    · next none => rw [(h.noRound none).2 i] at entry; cases entry
    · next r running =>
      have range := h.optRound i e entry
      rw [State.roundNow, running, Option.getD_some] at range
      bv_omega
  exact
    { guard := fits
      nconf := dealt.nconf h.nconf
      sorted := eligibleProbes_sorted t
      listed := fun p mem => probed_of_eligible (fits p) mem
      fresh := fun p _ i e entry _ => by
        obtain ⟨f, entry, same, -⟩ := before entry
        rw [now, same]
        exact fresh entry
      optPort := fun i e entry => by
        obtain ⟨k, f, old, -, egress⟩ := dealt.opt i e entry
        exact seat k (egress ▸ h.optPort i f old)
      optRound := fun i e entry => by rw [now]; exact older_eq_false (recent i e entry)
      optOnce := fun i j e f ei fj round egress => by
        obtain ⟨e', ei, re, ee⟩ := before ei
        obtain ⟨f', fj, rf, ef⟩ := before fj
        exact h.optOnce i j e' f' ei fj (re.symm.trans (round.trans rf)) (ee.symm.trans (egress.trans ef))
      noRound := fun none => nomatch round.symm.trans none
      letCount := fun i e entry => by
        obtain ⟨-, -, f, old, renewed⟩ := dealt.slots i e entry
        exact renewed.count h.nconf (h.letCount i f old)
      letPort := fun i e entry => by
        obtain ⟨k, link, f, old, renewed⟩ := dealt.slots i e entry
        obtain ⟨egress, ingress, probed⟩ := h.letPort i f old
        obtain ⟨egress, probed⟩ := seat k (renewed.egress ▸ ⟨egress, probed⟩)
        exact ⟨egress, link (by rw [opened, renewed.ingress]; exact ingress), probed⟩
      letOnce := fun i j e f ei fj egress ingress => by
        obtain ⟨-, -, e', ei, re⟩ := dealt.slots i e ei
        obtain ⟨-, -, f', fj, rf⟩ := dealt.slots j f fj
        exact h.letOnce i j e' f' ei fj (re.egress.symm.trans (egress.trans rf.egress))
          (re.ingress.symm.trans (ingress.trans rf.ingress))
      loading := fun l => absurd (loaded.symm.trans l) (by decide) }

theorem tablesFit_roundSteps {s : State} (loaded : s.control.loading = false) (h : TablesFit s) :
    TablesFit (roundSteps s) := by
  have dealt := thinned_dealOld (nextRound s) (roundOpened s)
  rw [roundSteps_eq]
  exact tablesFit_relisted h (dealt.loading.trans loaded) dealt fun i e => dealOld_recent

theorem tablesFit_takeRound {s : State} (h : TablesFit s) : TablesFit (takeRound s) := by
  unfold takeRound
  split
  · next due =>
    refine (thinned_uplinkBook _).tablesFit (tablesFit_roundSteps (Bool.eq_false_iff.mpr fun loading => ?_) h)
    exact absurd (due.symm.trans (h.loading loading).2.1) (by decide)
  · exact h

end Sys2Proof.Machine
end

section
/-! SUPPORT. The properties of the probe list, the OPT and the LET over every step (R42, R43, R57). -/

namespace Sys2Proof.Machine

/-! ### The interval and the end of START -/

theorem tablesFit_expireDue {s : State} (h : TablesFit s) : TablesFit (expireDue s) :=
  (thinned_expireAll _ s).tablesFit h

theorem tablesFit_settleInterval {s : State} (h : TablesFit s) : TablesFit (settleInterval s) := by
  have rest (l : List Port) (t : State) :
      Thinned t (strobesSent (hostLostEnds (l.foldl (fun u p => portEnds p u) t))) :=
    ((Thinned.foldl (fun t p => thinned_portEnds p t) l t).trans (thinned_hostLostEnds _)).trans
      (.of_frame (frame_strobesSent _) (by decide))
  unfold settleInterval
  dsimp only
  generalize allPorts = l
  exact (rest l _).tablesFit (tablesFit_takeRound (tablesFit_expireDue h))

theorem hostLostEnds_running {s : State} (running : s.control.mode ≠ .start) :
    (hostLostEnds s).control.mode ≠ .start := by
  unfold hostLostEnds
  split
  · rw [(enterAutonomous_control _ s).1]; decide
  · exact running

theorem settleInterval_running {s : State} (running : s.control.mode ≠ .start) :
    (settleInterval s).control.mode ≠ .start := by
  have expired : (expireDue s).control = s.control := frame_expireDue s .control (by decide)
  have rounds : (takeRound (expireDue s)).control = s.control :=
    (frame_takeRound _ .control (by decide)).trans expired
  have ends (l : List Port) (t : State) : (l.foldl (fun u p => portEnds p u) t).control = t.control :=
    (OnlyChanges.foldl (fun t p => frame_portEnds p t) l t) .control (by decide)
  have strobes (t : State) : (strobesSent t).control = t.control := frame_strobesSent t .control (by decide)
  unfold settleInterval
  dsimp only
  rw [strobes]
  exact hostLostEnds_running (by rw [ends, rounds]; exact running)

theorem thinned_opened {s : State} (loaded : s.control.loading = false) : Thinned s (opened s) := by
  have running : ¬ s.Idle := fun i => absurd (loaded.symm.trans i.1) (by decide)
  have booted : Thinned s (booted s) := by
    unfold Machine.booted
    split
    · exact thinned_setMode _ _ running
    · exact thinned_enterAutonomous _ running
  have begun (t : State) (n : Option Nat) : Thinned t { t with clock := { t.clock with length := n } } :=
    { Thinned.refl t with }
  exact (booted.trans (begun _ _)).trans (.of_frame (frame_handTx _ _) (by decide))

theorem tablesFit_startDone {s : State} (loaded : s.control.loading = false) (h : TablesFit s) :
    TablesFit (startDone s) := by
  have opened := thinned_opened loaded
  rw [startDone_eq]
  exact tablesFit_roundSteps (opened.loading.trans loaded) (opened.tablesFit h)

/-! ### Inbound records -/

theorem tablesFit_sweepAnswered (p : Port) {s : State} (loaded : s.control.loading = false) (h : TablesFit s) :
    TablesFit (sweepAnswered p s) := by
  have left : Thinned s (leaveSweep p s) := thinned_set_control s _ id rfl fun i => i.2
  unfold sweepAnswered
  split
  · split
    · exact tablesFit_startDone loaded (left.tablesFit h)
    · exact left.tablesFit h
  · exact h

theorem thinned_setportConfirmed (p : Port) (s : State) : Thinned s (setportConfirmed p s) :=
  thinned_modPort ⟨rfl, rfl, rfl, Or.inl rfl⟩

theorem tablesFit_ackEnds (o : Outstanding) (ok up : Bool) {s : State} (loaded : s.control.loading = false)
    (h : TablesFit s) : TablesFit (ackEnds o ok up s) := by
  have confirmed : Thinned s (linkReport o.port up (setportConfirmed o.port s)) :=
    (thinned_setportConfirmed _ s).trans (thinned_linkReport _ _ _)
  have absent := thinned_absence o.port s
  unfold ackEnds
  split
  · split
    · exact tablesFit_sweepAnswered _ (confirmed.loading.trans loaded) (confirmed.tablesFit h)
    · exact tablesFit_sweepAnswered _ (absent.loading.trans loaded) (absent.tablesFit h)
  · refine (thinned_linkReport _ _ _).tablesFit ?_
    split
    · exact (thinned_probeAcked _ _ s).tablesFit h
    · exact (thinned_probeEnded _ _ s).tablesFit h

theorem tablesFit_ackTaken (f : PortField) (ok up : Bool) {s : State} (loaded : s.control.loading = false)
    (h : TablesFit s) : TablesFit (ackTaken f ok up s) := by
  have seen : Thinned s (ackSeen s) := .of_frame (frame_ackSeen s) (by decide)
  have stray : Thinned s (strayAck (ackSeen s)) := seen.trans (.of_frame (frame_set_glink _ _) (by decide))
  have ended : Thinned s (endCommand (ackSeen s)) := seen.trans (.of_frame (frame_endCommand _) (by decide))
  unfold ackTaken
  split
  · exact stray.tablesFit h
  · split
    · exact tablesFit_ackEnds _ _ _ (ended.loading.trans loaded) (ended.tablesFit h)
    · exact stray.tablesFit h

/-- A valid record reaches its block only once the load is done. -/
theorem tablesFit_inbound (k : InboundKind) (f : PortField) {act : State → State} {s : State}
    (acts : ∀ t, t.control.loading = false → TablesFit t → TablesFit (act t)) (h : TablesFit s) :
    TablesFit (inbound k f act s) := by
  have done : Thinned s (recordDone s) := .of_frame (frame_set_glink s _) (by decide)
  have returned : Thinned s (linkReturns f k (recordDone s)) :=
    done.trans (.of_frame (frame_linkReturns f k _) (by decide))
  unfold inbound
  split
  · exact done.tablesFit h
  · next loaded =>
    exact acts _ (returned.loading.trans (Bool.eq_false_iff.mpr loaded)) (returned.tablesFit h)

/-- A record with a port field, which may name no port. -/
theorem tablesFit_record (k : InboundKind) (f : PortField) {act : Port → State → State} {s : State}
    (acts : ∀ p t, Thinned t (act p t)) (h : TablesFit s) :
    TablesFit (inbound k f (fun t => match portOf f with | some p => act p t | none => badPort t) s) := by
  refine tablesFit_inbound k f (fun t _ ht => ?_) h
  split
  · exact (acts _ t).tablesFit ht
  · exact (Thinned.of_frame (frame_set_glink t _) (by decide)).tablesFit ht

/-! ### Every command -/

/-- A command that leaves the records, the tables, the Mode Unit and the clock. -/
theorem thinned_aside {c : Instr} {s t : State}
    (aside : ∀ a ∈ touches c, a ∉ [Part.ports, .probe, .evidence, .control, .clock]) (run : exec c s = .next t) :
    Thinned s t := by
  obtain ⟨u, run', frame⟩ := exec_frame c s
  cases run.symm.trans run'
  exact .of_frame frame aside

theorem thinned_keyRead (c : Instr) (s : State) : Thinned s (keyRead c s) := by
  unfold keyRead
  split
  · exact thinned_sampleKey _ s
  · exact thinned_sampleKey _ s
  · exact thinned_sampleKey _ s
  · exact .refl s

/-- A request command, each of which takes the one path of `request`. -/
theorem thinned_requested {c : Instr} {kind : Byte} {fields : List Byte} (request : requestOf c = some (kind, fields))
    {s t : State} (run : exec c s = .next t) : Thinned s t := by
  obtain ⟨k, run'⟩ := exec_request request s
  cases run.symm.trans run'
  exact (thinned_keyRead c s).trans (thinned_request _ _ (fun t => thinned_ifServed k _ t) _)

theorem exec_tablesFit (c : Instr) {s t : State} (h : TablesFit s) (run : exec c s = .next t) : TablesFit t := by
  cases requested : requestOf c with
  | some request => exact (thinned_requested requested run).tablesFit h
  | none =>
    cases c
    case powerReset baud => cases run; exact tablesFit_resetTo _ _ s
    case pinReset baud => cases run; exact tablesFit_resetTo _ _ s
    case settingsStoreLoad =>
      cases run
      split
      · next loading => exact tablesFit_loadDone loading h
      · exact h
    case intervalEvent =>
      cases run
      split
      · exact h
      · next running =>
        exact (thinned_intervalTick (settleInterval_running running)).tablesFit (tablesFit_settleInterval h)
    case roundStart =>
      cases run
      split
      · exact tablesFit_takeRound (tablesFit_expireDue h)
      · exact h
    case probeExpiry =>
      cases run
      split
      · exact h
      · exact (thinned_expireSlot _ s).tablesFit h
    case throttleHoldExpiry p =>
      cases run
      exact (((thinned_lowerPortsEnd p s).trans (thinned_throttleEnds p _)).ite).tablesFit h
    case holdExpiry p =>
      cases run
      exact (((thinned_lowerPortsEnd p s).trans (thinned_holdEnds p _)).ite).tablesFit h
    case strikeDecay p => cases run; exact (thinned_decayEnds p s).tablesFit h
    case hostLost => cases run; exact (thinned_hostLostEnds s).tablesFit h
    case digest f stamp n =>
      cases run
      exact tablesFit_record .digest f (fun p t => thinned_digestAtMeter p stamp n.toNat t) h
    case catchRecord y x r d =>
      cases run
      exact tablesFit_inbound _ _ (fun t loaded ht => tablesFit_catchAtProbe ht loaded) h
    case link f up =>
      cases run
      exact tablesFit_record .link f (fun p t => thinned_linkReport p up t) h
    case ack f ok up =>
      cases run
      exact tablesFit_inbound _ _ (fun t loaded ht => tablesFit_ackTaken f ok up loaded ht) h
    case ackTimeout =>
      cases run
      split
      · exact (thinned_commandTimeout _ s).ite.tablesFit h
      · exact h
    case setport =>
      cases run
      split
      · exact (thinned_grantSetport _ s).tablesFit h
      · exact h
      · exact h
    case inject =>
      cases run
      split
      · next grant => exact tablesFit_grantProbe h (nextGrant_probe grant)
      · exact h
      · exact h
    case character b stop => cases run; exact (thinned_character b stop s).tablesFit h
    case replyEnd baud =>
      cases run
      split
      · split
        · exact tablesFit_resetTo _ _ s
        · exact (Thinned.of_frame (frame_replyEnds s) (by decide)).tablesFit h
      · exact h
    case unknown kind fields =>
      cases run
      split
      · exact h
      · exact (thinned_request _ _ (act := fun t => refuse .unknown t) (fun t => .refl t) s).tablesFit h
    case startPacingAllowance => exact (thinned_aside (by decide) run).tablesFit h
    case framingError bits => exact (thinned_aside (by simp [touches]) run).tablesFit h
    case unknownRecord w => exact (thinned_aside (by simp [touches]) run).tablesFit h
    case commandLastBit => exact (thinned_aside (by decide) run).tablesFit h
    case strobeLastBit => exact (thinned_aside (by decide) run).tablesFit h
    case gapTimeout => exact (thinned_aside (by decide) run).tablesFit h
    case checkFail body check => exact (thinned_aside (by simp [touches]) run).tablesFit h
    case rejectBusy kind fields => exact (thinned_aside (by simp [touches]) run).tablesFit h
    case writeCompletion took => exact (thinned_aside (by simp [touches]) run).tablesFit h
    case keyFall => exact (thinned_aside (by decide) run).tablesFit h
    all_goals cases requested

/-- Settles O56: an event adds to the tables only as a grant, a round start or a sighting does, and every other leaves
of them what its ports, links and roles still bear. -/
theorem tablesKeepTheirProperties : Obligations.TablesKeepTheirProperties := by
  intro s t _ h run
  unfold step at run
  split at run
  · cases run; exact h
  · next rest _ => exact exec_tablesFit _ ((Thinned.of_frame (frame_set_pending s rest) (by decide)).tablesFit h) run

end Sys2Proof.Machine
end

section
/-! SUPPORT. The listen bookkeeping (R84 to R86): one judgement of a port, what it reports, and what it leaves of the
other ports and of the LET; and with it the expiry of a probe (R50, R68). -/

namespace Sys2Proof.Machine

/-! ### One judgement -/

/-- What a listen count was is forgotten as the port leaves LISTEN. -/
theorem enter_listen (r : PortRec) (n : Nat) (g : GuardState) (a b : Nat) :
    ({ r with listen := n } : PortRec).enter g a b = r.enter g a b := rfl

/-- The record of a port after one judgement of the listen bookkeeping. -/
def judgedRecord (p : Port) (clean : Bool) (s : State) : PortRec :=
  if clean then
    if s.control.policy.nLSN ≤ min Config.cleanMax ((s.port p).listen + 1) then
      if (s.port p).trip then (s.port p).enter .throttle (s.rowAt p).nthr 0 else (s.port p).enter .forward 0 0
    else { s.port p with listen := min Config.cleanMax ((s.port p).listen + 1) }
  else { s.port p with listen := 0 }

theorem leaveListen_port (p : Port) (n : Nat) (s : State) :
    (leaveListen p (s.modPort p fun r => { r with listen := n })).port p =
      if (s.port p).trip then (s.port p).enter .throttle (s.rowAt p).nthr 0 else (s.port p).enter .forward 0 0 := by
  have counted : (s.modPort p fun r => { r with listen := n }).port p = { s.port p with listen := n } :=
    port_modPort_self ..
  have row : (s.modPort p fun r => { r with listen := n }).rowAt p = s.rowAt p := by
    unfold State.rowAt
    rw [counted, modPort_control]
  unfold leaveListen
  rw [counted]
  split
  · rw [goThrottle, moveGuard_port, if_pos rfl, counted, row, enter_listen]
  · rw [goPlain_port, if_pos rfl, counted, enter_listen]

theorem listenJudge_port (p : Port) (clean : Bool) (s : State) :
    (listenJudge p clean s).port p = judgedRecord p clean s := by
  unfold listenJudge judgedRecord
  cases clean with
  | false =>
    simp only [Bool.false_eq_true, if_false]
    exact port_modPort_self ..
  | true =>
    simp only [if_true]
    by_cases enough : s.control.policy.nLSN ≤ min Config.cleanMax ((s.port p).listen + 1)
    · rw [if_pos enough, if_pos enough]
      exact leaveListen_port p _ s
    · rw [if_neg enough, if_neg enough]
      exact port_modPort_self ..

theorem judgedRecord_unclean (p : Port) (s : State) : judgedRecord p false s = { s.port p with listen := 0 } :=
  if_neg Bool.false_ne_true

theorem judgedRecord_few {p : Port} {s : State}
    (few : min 7 ((s.port p).listen + 1) < s.control.policy.nLSN) :
    judgedRecord p true s = { s.port p with listen := min 7 ((s.port p).listen + 1) } :=
  (if_pos rfl).trans (if_neg (Nat.not_le.mpr few))

theorem judgedRecord_enough {p : Port} {s : State} (enough : s.control.policy.nLSN ≤ min 7 ((s.port p).listen + 1)) :
    judgedRecord p true s =
      if (s.port p).trip then (s.port p).enter .throttle (s.rowAt p).nthr 0 else (s.port p).enter .forward 0 0 :=
  (if_pos rfl).trans (if_pos enough)

/-- One judgement of a port in LISTEN is what the statements say of it. -/
theorem listenBooked_judged {p : Port} {clean : Bool} {s t : State} (listens : (s.port p).guard = .listen)
    (port : t.port p = judgedRecord p clean s) : ListenBooked p (clean = true) s t where
  away away := absurd listens away
  unclean _ not := by
    obtain rfl := Bool.eq_false_iff.mpr not
    exact port.trans (judgedRecord_unclean p s)
  counts _ is few := by
    subst is
    exact port.trans (judgedRecord_few few)
  leaves leaves trip := by
    obtain ⟨-, rfl, enough⟩ := leaves
    rw [port, judgedRecord_enough enough, trip, if_neg Bool.false_ne_true]
    exact enter_entered _ _
  throttles leaves trip := by
    obtain ⟨-, rfl, enough⟩ := leaves
    rw [port, judgedRecord_enough enough, if_pos trip]
    obtain ⟨guard, listen, throttle, hold, decay, strike, -, -, -, wanted⟩ :=
      enter_spec (s.port p) .throttle (s.rowAt p).nthr 0
    have flag := (enter_fields (s.port p) .throttle (s.rowAt p).nthr 0).trip
    exact ⟨guard, throttle, listen, hold, decay, strike, flag.trans trip, wanted⟩

/-- A port that has been judged is none that evidence-gone acts on. -/
theorem judgedRecord_not_freed {p : Port} (clean : Bool) {s : State} (listens : (s.port p).guard = .listen) :
    ¬ (judgedRecord p clean s).Freed := by
  have guard : (judgedRecord p clean s).guard = .listen ∨ (judgedRecord p clean s).guard = .forward ∨
      (judgedRecord p clean s).guard = .throttle := by
    unfold judgedRecord
    split
    · split
      · split
        · exact Or.inr (Or.inr (enter_spec ..).1)
        · exact Or.inr (Or.inl (enter_spec ..).1)
      · exact Or.inl listens
    · exact Or.inl listens
  rintro (g | ⟨g, -⟩) <;> rw [g] at guard <;> simp at guard

theorem listenDone_congr {p : Port} {s t : State} (h : t.port p = s.port p) : listenDone p t = listenDone p s := by
  unfold listenDone
  rw [h]

/-- The judgement that takes a port out of LISTEN tells its STATE record, and no other judgement tells any. -/
theorem listenJudge_reports {p : Port} {clean : Bool} {s : State} (listens : (s.port p).guard = .listen) :
    (LeavesListen p (clean = true) s → (listenJudge p clean s).reports = (report (listenDone p s) s).reports) ∧
      (¬ LeavesListen p (clean = true) s → (listenJudge p clean s).reports = s.reports) := by
  have counted (n : Nat) : (s.modPort p fun r => { r with listen := n }).port p = { s.port p with listen := n } :=
    port_modPort_self ..
  unfold listenJudge
  cases clean with
  | false => exact ⟨fun leaves => absurd leaves.2.1 Bool.false_ne_true, fun _ => rfl⟩
  | true =>
    dsimp only
    rw [if_pos rfl]
    split
    · next enough =>
      refine ⟨fun _ => ?_, fun stays => absurd ⟨listens, rfl, enough⟩ stays⟩
      unfold leaveListen listenDone
      rw [counted]
      split
      · rw [goThrottle, moveGuard_reports, counted]
        rw [listens]
        exact report_reports_congr _ rfl rfl
      · rw [goPlain_reports, counted]
        rw [listens]
        exact report_reports_congr _ rfl rfl
    · next few => exact ⟨fun leaves => absurd leaves.2.2 few, fun _ => rfl⟩

/-! ### Bookkeeping with a sound LET -/

theorem involved_congr {s t : State} {p : Port}
    (h : ∀ i e, t.evidence.slots.get i = some e ↔ s.evidence.slots.get i = some e) : Involved t p ↔ Involved s p := by
  simp only [Involved, h]

/-- Where every LET entry is sound, the bookkeeping is one judgement of a port in LISTEN. -/
theorem listenBook_sound {p : Port} {quiet : Bool} {s : State} (sound : LetSound s)
    (listens : (s.port p).guard = .listen) :
    listenBook p quiet s = listenJudge p (quiet && !s.involved p) s := by
  have evidence : (listenJudge p (quiet && !s.involved p) s).evidence = s.evidence :=
    frame_listenJudge _ _ _ .evidence (by decide)
  unfold listenBook
  rw [if_pos listens]
  dsimp only
  rw [readLet_sound sound, settleSweep_clear (by rw [evidence]; exact sound.1)]

theorem listenBook_away {p : Port} (quiet : Bool) {s : State} (away : (s.port p).guard ≠ .listen) :
    listenBook p quiet s = s := if_neg away

theorem frame_listenBook_sound (p : Port) (quiet : Bool) {s : State} (sound : LetSound s) :
    OnlyChanges [.ports, .reports] s (listenBook p quiet s) := by
  by_cases listens : (s.port p).guard = .listen
  · rw [listenBook_sound sound listens]
    exact frame_listenJudge _ _ _
  · rw [listenBook_away quiet listens]
    exact OnlyChanges.refl _ s

theorem listenBook_other_sound {p q : Port} (quiet : Bool) {s : State} (sound : LetSound s) (other : q ≠ p) :
    (listenBook p quiet s).port q = s.port q := by
  by_cases listens : (s.port p).guard = .listen
  · rw [listenBook_sound sound listens, listenJudge_other _ _ other]
  · rw [listenBook_away quiet listens]

theorem clean_iff {quiet : Bool} {Q : Prop} (h : Q ↔ quiet = true) (p : Port) (s : State) :
    Q ∧ ¬ Involved s p ↔ (quiet && !s.involved p) = true := by
  rw [Bool.and_eq_true, Bool.not_eq_true', involved_false, h]

/-- The bookkeeping of one port, made at a moment that is quiet for it or not. -/
theorem listenBook_booked {p : Port} {quiet : Bool} {Q : Prop} {s : State} (sound : LetSound s) (h : Q ↔ quiet = true) :
    ListenBooked p (Q ∧ ¬ Involved s p) s (listenBook p quiet s) := by
  by_cases listens : (s.port p).guard = .listen
  · rw [propext (clean_iff h p s), listenBook_sound sound listens]
    exact listenBooked_judged listens (listenJudge_port ..)
  · rw [listenBook_away quiet listens]
    exact ⟨fun _ => rfl, fun is => absurd is listens, fun is => absurd is listens, fun is => absurd is.1 listens,
      fun is => absurd is.1 listens⟩

theorem listenBook_reports {p : Port} {quiet : Bool} {Q : Prop} {s : State} (sound : LetSound s)
    (h : Q ↔ quiet = true) :
    (LeavesListen p (Q ∧ ¬ Involved s p) s →
      (listenBook p quiet s).reports = (report (listenDone p s) s).reports) ∧
      (¬ LeavesListen p (Q ∧ ¬ Involved s p) s → (listenBook p quiet s).reports = s.reports) := by
  by_cases listens : (s.port p).guard = .listen
  · rw [propext (clean_iff h p s), listenBook_sound sound listens]
    exact listenJudge_reports listens
  · rw [listenBook_away quiet listens]
    exact ⟨fun is => absurd is.1 listens, fun _ => rfl⟩

/-! ### The statements' predicates, read in a state like the one they were shown of -/

theorem LeavesListen.congr {p : Port} {P : Prop} {s t : State} (port : t.port p = s.port p)
    (control : t.control = s.control) : LeavesListen p P t ↔ LeavesListen p P s := by
  unfold LeavesListen
  rw [port, control]

theorem ListenBooked.congr {p : Port} {P : Prop} {s s' t : State} (h : ListenBooked p P s t)
    (port : s'.port p = s.port p) (control : s'.control = s.control) : ListenBooked p P s' t := by
  obtain ⟨away, unclean, counts, leaves, throttles⟩ := h
  have row : s'.rowAt p = s.rowAt p := by unfold State.rowAt; rw [port, control]
  have leave : LeavesListen p P s' ↔ LeavesListen p P s := LeavesListen.congr port control
  exact
    { away := by rw [port]; exact away
      unclean := by rw [port]; exact unclean
      counts := by rw [port, control]; exact counts
      leaves := by rw [port, leave]; exact leaves
      throttles := by rw [port, leave, row]; exact throttles }

theorem ListenBooked.of_port {p : Port} {P : Prop} {s t t' : State} (h : ListenBooked p P s t)
    (port : t'.port p = t.port p) : ListenBooked p P s t' := by
  obtain ⟨away, unclean, counts, leaves, throttles⟩ := h
  rw [← port] at away unclean counts leaves throttles
  exact ⟨away, unclean, counts, leaves, throttles⟩

/-! ### The expiry of a probe -/

theorem exec_expiry {s : State} {i : Fin 32} (due : (dueSlots s).head? = some i) :
    exec .probeExpiry s = .next (expireSlot i s) := by
  show execProbeExpiry s = _
  unfold execProbeExpiry
  split
  · next none => rw [none] at due; cases due
  · next j l some => rw [some] at due; cases due; rfl

/-- The LET entries that the expiry of a probe withdraws: those of its egress that it did not renew (R68). -/
def unrenewed (e : OptEntry) (l : LetEntry) : Bool := decide (l.egress = e.egress) && !decide (l.ingress ∈ e.caught)

theorem unrenewed_iff {e : OptEntry} {l : LetEntry} :
    unrenewed e l = true ↔ l.egress = e.egress ∧ l.ingress ∉ e.caught := by
  rw [unrenewed, Bool.and_eq_true, decide_eq_true_eq, Bool.not_eq_true', decide_eq_false_iff_not]

theorem withdraw_slot {c : LetEntry → Bool} {s : State} (sound : LetSound s) (j : Fin 16) :
    (withdraw c s).evidence.slots.get j = (s.evidence.slots.get j).filter fun l => !c l := by
  refine Option.ext fun l => ?_
  rw [withdraw_get, Option.filter_eq_some_iff, Bool.not_eq_true']
  exact and_congr_right fun entry => and_iff_right (sound.2 j l entry)

/-- A removal from a sound LET leaves it sound. -/
theorem letSound_withdraw {c : LetEntry → Bool} {s : State} (sound : LetSound s) : LetSound (withdraw c s) := by
  refine ⟨?_, fun i e entry => ((withdraw_get c s i e).mp entry).2.1⟩
  have check (v : Port → Bool) (t : State) : (evidenceGoneCheck v t).evidence = t.evidence :=
    frame_evidenceGoneCheck v t .evidence (by decide)
  have clear (v : Port → Bool) : (evidenceGoneCheck v (eraseLet c s)).evidence.sweepOwed = false := by
    rw [check]; exact sound.1
  rw [withdraw, readLet_sound sound]
  rw [settleSweep_clear (clear _), clear]

/-- The expiry of an entry: the evidence it did not renew is withdrawn, and a probed egress is booked. -/
theorem expireSlot_eq {s : State} {i : Fin 32} {e : OptEntry} (entry : s.probe.opt.get i = some e) :
    expireSlot i s =
      clearOpt i
        (if (s.port e.egress).role.probed then
          listenBook e.egress (decide (e.caught = [])) (withdraw (unrenewed e) s)
        else withdraw (unrenewed e) s) := by
  have role (c : LetEntry → Bool) : ((withdraw c s).port e.egress).role = (s.port e.egress).role :=
    (kept_withdraw c s e.egress).role
  unfold expireSlot
  simp only [entry, role]
  rfl

/-- The parts an expiry leaves, where the LET is sound: the table without the entry, and the LET without what it did not
renew. -/
theorem expireSlot_evidence {s : State} {i : Fin 32} {e : OptEntry} (sound : LetSound s)
    (entry : s.probe.opt.get i = some e) :
    (expireSlot i s).evidence = (withdraw (unrenewed e) s).evidence := by
  have cleared (t : State) : (clearOpt i t).evidence = t.evidence := rfl
  rw [expireSlot_eq entry, cleared]
  split
  · exact frame_listenBook_sound _ _ (letSound_withdraw sound) .evidence (by decide)
  · rfl

theorem expireSlot_free {s : State} {i : Fin 32} (free : s.probe.opt.get i = none) : expireSlot i s = s := by
  unfold expireSlot
  simp only [free]

theorem expireSlot_list (i : Fin 32) (s : State) :
    (expireSlot i s).probe.list = s.probe.list ∧ (expireSlot i s).probe.skipped = s.probe.skipped := by
  have cleared (t : State) : (clearOpt i t).probe.list = t.probe.list ∧
      (clearOpt i t).probe.skipped = t.probe.skipped := ⟨rfl, rfl⟩
  have withdrawn (c : LetEntry → Bool) : (withdraw c s).probe = s.probe := frame_withdraw c s .probe (by decide)
  have booked (p : Port) (quiet : Bool) (t : State) : (listenBook p quiet t).probe = t.probe :=
    frame_listenBook p quiet t .probe (by decide)
  cases entry : s.probe.opt.get i with
  | none => rw [expireSlot_free entry]; exact ⟨rfl, rfl⟩
  | some e =>
    rw [expireSlot_eq entry, (cleared _).1, (cleared _).2]
    split
    · rw [booked, withdrawn]; exact ⟨rfl, rfl⟩
    · rw [withdrawn]; exact ⟨rfl, rfl⟩

/-- The withdrawal of the evidence that an expiry does not renew, by the events it gives: evidence-gone for victims that
no remaining entry names. -/
theorem withdraw_unrenewed {s : State} {e : OptEntry} (sound : LetSound s) {gone : List Port}
    (ascending : gone.Pairwise (· < ·))
    (mem : ∀ v, v ∈ gone ↔
      (∃ j l, s.evidence.slots.get j = some l ∧ l.egress = e.egress ∧ l.ingress ∉ e.caught ∧ l.victim = some v) ∧
        ¬ Named (withdraw (unrenewed e) s) v) :
    (∀ q, (withdraw (unrenewed e) s).port q = (allGone gone s).port q) ∧
      (withdraw (unrenewed e) s).reports = (allGone gone s).reports := by
  have slots (j : Fin 16) (l : LetEntry) : (withdraw (unrenewed e) s).evidence.slots.get j = some l ↔
      (eraseLet (unrenewed e) s).evidence.slots.get j = some l := by
    rw [withdraw_get, eraseLet_get]
    exact and_congr_right fun entry => and_iff_right (sound.2 j l entry)
  have withdrawn : withdraw (unrenewed e) s = allGone gone (eraseLet (unrenewed e) s) := by
    refine withdraw_sound sound ascending fun v => ?_
    rw [mem]
    simp only [Named, slots, unrenewed_iff, and_assoc]
  have erased : OnlyChanges [.evidence] s (eraseLet (unrenewed e) s) := frame_eraseLet _ s
  have ports (q : Port) : (eraseLet (unrenewed e) s).port q = s.port q := port_congr (erased .ports (by decide)) q
  rw [withdrawn]
  refine ⟨fun q => by rw [allGone_port, allGone_port, ports], ?_⟩
  rw [allGone_reports (ascending_nodup ascending), allGone_reports (ascending_nodup ascending)]
  simp only [ports]
  exact goneReports_congr _ _ _ (erased .reports (by decide)) (congrArg IntervalClock.stamp (erased .clock (by decide)))

/-- The bookkeeping of a probed egress at an expiry, after the withdrawal. -/
theorem expireSlot_booked {s : State} {i : Fin 32} {e : OptEntry} {P : Prop} (sound : LetSound s)
    (entry : s.probe.opt.get i = some e) (probed : (s.port e.egress).role.probed = true)
    (clean : P ↔ e.caught = [] ∧ ¬ Involved (withdraw (unrenewed e) s) e.egress) :
    ListenBooked e.egress P (withdraw (unrenewed e) s) (expireSlot i s) ∧
      (LeavesListen e.egress P (withdraw (unrenewed e) s) →
        (expireSlot i s).reports =
          (report (listenDone e.egress (withdraw (unrenewed e) s)) (withdraw (unrenewed e) s)).reports) ∧
      (¬ LeavesListen e.egress P (withdraw (unrenewed e) s) →
        (expireSlot i s).reports = (withdraw (unrenewed e) s).reports) := by
  have withdrawn : LetSound (withdraw (unrenewed e) s) := letSound_withdraw sound
  have quiet : e.caught = [] ↔ decide (e.caught = []) = true := decide_eq_true_iff.symm
  have cleared (t : State) : (clearOpt i t).port e.egress = t.port e.egress := port_congr rfl _
  have told (t : State) : (clearOpt i t).reports = t.reports := rfl
  have booked := listenBook_booked (p := e.egress) withdrawn quiet
  have reports := listenBook_reports (p := e.egress) withdrawn quiet
  rw [propext clean, expireSlot_eq entry, if_pos probed, told]
  exact ⟨booked.of_port (cleared _), reports⟩

/-- Settles O10: the withdrawal gives evidence-gone, and one judgement of a probed egress follows. -/
theorem probeExpiryWithdrawsEvidence : Obligations.ProbeExpiryWithdrawsEvidence := by
  intro s i e _ sound entry due
  have evidence := expireSlot_evidence sound entry
  have withdrawn : LetSound (withdraw (unrenewed e) s) := letSound_withdraw sound
  have control : (withdraw (unrenewed e) s).control = s.control := frame_withdraw _ s .control (by decide)
  have clock : (withdraw (unrenewed e) s).clock = s.clock := frame_withdraw _ s .clock (by decide)
  refine ⟨_, exec_expiry due, frame_expireSlot i s, ?_, fun j other => ?_, (expireSlot_list i s).1, fun j => ?_, ?_⟩
  · rw [expireSlot_get, if_pos rfl]
  · rw [expireSlot_get, if_neg other]
  · rw [evidence, withdraw_slot sound]
    cases s.evidence.slots.get j with
    | none => rfl
    | some l =>
      by_cases gone : l.egress = e.egress ∧ l.ingress ∉ e.caught
      · simp [Option.filter, gone, unrenewed]
      · simp [Option.filter, gone, Bool.eq_false_iff.mpr (unrenewed_iff.not.mpr gone)]
  · intro gone ascending mem
    have named (v : Port) : Named (expireSlot i s) v ↔ Named (withdraw (unrenewed e) s) v := by
      simp only [Named, evidence]
    have involved : Involved (expireSlot i s) e.egress ↔ Involved (withdraw (unrenewed e) s) e.egress := by
      simp only [Involved, evidence]
    obtain ⟨ports, reports⟩ := withdraw_unrenewed sound ascending fun v => (mem v).trans (by rw [named])
    have cleared (t : State) (q : Port) : (clearOpt i t).port q = t.port q := port_congr rfl q
    have told (t : State) : (clearOpt i t).reports = t.reports := rfl
    have same : (withdraw (unrenewed e) s).control = (allGone gone s).control :=
      control.trans (frame_allGone gone s .control (by decide)).symm
    have stamp : (withdraw (unrenewed e) s).clock.stamp = (allGone gone s).clock.stamp := by
      rw [clock, frame_allGone gone s .clock (by decide)]
    refine ⟨allGone gone s, frame_allGone gone s, allGone_evidenceGone (ascending_nodup ascending) s, fun q other => ?_,
      fun unprobed => ?_, fun probed => ?_⟩
    · rw [expireSlot_eq entry, cleared, ← ports]
      split
      · exact listenBook_other_sound _ withdrawn other
      · rfl
    · rw [expireSlot_eq entry, cleared, told, unprobed, if_neg Bool.false_ne_true]
      exact ⟨ports _, reports⟩
    · obtain ⟨booked, leaves, stays⟩ :=
        expireSlot_booked sound entry probed (and_congr_right' (not_congr involved))
      refine ⟨booked.congr (ports _).symm same.symm, fun is => ?_, fun not => ?_⟩
      · rw [leaves ((LeavesListen.congr (ports _) same).mpr is), listenDone_congr (ports _)]
        exact report_reports_congr _ reports stamp
      · rw [stays ((LeavesListen.congr (ports _) same).not.mpr not), reports]

end Sys2Proof.Machine
end

section
/-! SUPPORT. A round start (R40, R41): what it leaves of the probe list and of the OPT, and the bookkeeping of the
UPLINK ports that follows it (R86). -/

namespace Sys2Proof.Machine

/-! ### The list and the skipped probes -/

theorem expireAll_list (l : List (Fin 32)) (s : State) :
    (l.foldl (fun u i => expireSlot i u) s).probe.list = s.probe.list ∧
      (l.foldl (fun u i => expireSlot i u) s).probe.skipped = s.probe.skipped := by
  induction l generalizing s with
  | nil => exact ⟨rfl, rfl⟩
  | cons i l ih =>
    obtain ⟨list, skipped⟩ := ih (expireSlot i s)
    obtain ⟨list', skipped'⟩ := expireSlot_list i s
    exact ⟨list.trans list', skipped.trans skipped'⟩

theorem dealOld_skipped (r : Round) (s : State) : (dealOld r s).probe.skipped = s.probe.skipped := by
  have erased (c : OptEntry → Bool) (t : State) : (eraseOpt c t).probe.skipped = t.probe.skipped := by
    simp only [eraseOpt]
  unfold dealOld
  dsimp only
  rw [(expireAll_list _ _).2, erased, (readOpt_list s).2]

theorem relisted_port (s : State) (p : Port) : s.relisted.port p = s.port p := port_congr rfl p

/-- The probes of the list are skipped, with those before them (R38, R40). -/
theorem roundSteps_skipped (s : State) :
    (roundSteps s).probe.skipped = min 65535 (s.probe.skipped + s.probe.list.length) := by
  have relisted (t : State) : t.relisted.probe.skipped = t.probe.skipped := rfl
  rw [roundSteps_eq, relisted, dealOld_skipped]
  rfl

theorem roundSteps_recent {s : State} {i : Fin 32} {e : OptEntry}
    (entry : (roundSteps s).probe.opt.get i = some e) : e.round = nextRound s ∨ e.round + 1 = nextRound s := by
  have relisted (t : State) : t.relisted.probe.opt = t.probe.opt := rfl
  rw [roundSteps_eq, relisted] at entry
  exact older_eq_false (dealOld_recent entry)

theorem probeable_eq (r : PortRec) :
    r.probeable = (r.present && decide (r.role = .access ∨ r.role = .teacher) &&
      decide (r.guard ≠ .down ∧ r.guard ≠ .disabled)) := by
  have role : r.role.probed = decide (r.role = .access ∨ r.role = .teacher) := by cases r.role <;> rfl
  have guard : r.guard.linked = decide (r.guard ≠ .down ∧ r.guard ≠ .disabled) := by cases r.guard <;> rfl
  rw [PortRec.probeable, role, guard]

theorem PortRec.Kept.probeable {r u : PortRec} (h : r.Kept u) : u.probeable = r.probeable := by
  unfold PortRec.probeable
  rw [h.present, h.role, h.linked]

/-- The new list holds the eligible ports, read in any state that keeps their records, the link and the mode. -/
theorem roundSteps_list {s t : State} (kept : Kept (roundSteps s) t) :
    (roundSteps s).probe.list =
      if s.glink.state = .up ∧ s.control.mode ≠ .start then allPorts.filter fun p => (t.port p).probeable else [] := by
  have relisted (u : State) : u.relisted.probe.list = eligibleProbes u := rfl
  have glink : (dealOld (nextRound s) (roundOpened s)).glink = s.glink :=
    frame_dealOld _ (roundOpened s) .glink (by decide)
  have control : (dealOld (nextRound s) (roundOpened s)).control = s.control :=
    frame_dealOld _ (roundOpened s) .control (by decide)
  have port (p : Port) : ((dealOld (nextRound s) (roundOpened s)).port p).probeable = (t.port p).probeable := by
    rw [(kept p).probeable, roundSteps_eq, relisted_port]
  rw [roundSteps_eq, relisted, eligibleProbes, glink, control]
  simp only [port]

/-! ### The UPLINK ports, in ascending order -/

/-- The bookkeeping of one port at a round start, if it is an UPLINK port (R86). -/
def uplinkStep (s : State) (p : Port) : State := if (s.port p).role = .uplink then listenBook p true s else s

theorem uplinkBook_up {s : State} (up : s.glink.state = .up) : uplinkBook s = allPorts.foldl uplinkStep s := if_pos up

theorem uplinkBook_down {s : State} (down : s.glink.state = .unresponsive) : uplinkBook s = s :=
  if_neg (by rw [down]; decide)

theorem frame_uplinkStep (s : State) (p : Port) : OnlyChanges guardParts s (uplinkStep s p) :=
  (frame_listenBook p true s).ite

/-- The bookkeeping of a port leaves every other that evidence-gone does not act on. -/
theorem listenBook_apart {p q : Port} (quiet : Bool) {s : State} (other : q ≠ p) (kept : ¬ (s.port q).Freed) :
    (listenBook p quiet s).port q = s.port q := by
  unfold listenBook
  split
  · dsimp only
    have judged : (listenJudge p (quiet && !(readLet s).involved p) (readLet s)).port q = s.port q := by
      rw [listenJudge_other _ _ other, readLet_port]
    rw [(goneAtMost_settleSweep _).stays (by rw [judged]; exact kept), judged]
  · rfl

theorem judgedRecord_congr {p : Port} (clean : Bool) {s t : State} (port : t.port p = s.port p)
    (control : t.control = s.control) : judgedRecord p clean t = judgedRecord p clean s := by
  unfold judgedRecord State.rowAt
  rw [port, control]

/-- A booked port is judged by the entries that its own read of the LET leaves. -/
theorem listenBook_port {p : Port} (quiet : Bool) {s : State} (listens : (s.port p).guard = .listen) :
    (listenBook p quiet s).port p = judgedRecord p (quiet && !(readLet s).involved p) s := by
  have control : (readLet s).control = s.control := frame_readLet s .control (by decide)
  have judged (clean : Bool) : (listenJudge p clean (readLet s)).port p = judgedRecord p clean s := by
    rw [listenJudge_port, judgedRecord_congr clean (readLet_port s p) control]
  unfold listenBook
  rw [if_pos listens]
  dsimp only
  rw [(goneAtMost_settleSweep _).stays (by rw [judged]; exact judgedRecord_not_freed _ listens), judged]

theorem listenBook_slots {p : Port} (quiet : Bool) {s : State} (listens : (s.port p).guard = .listen) (i : Fin 16)
    (e : LetEntry) :
    (listenBook p quiet s).evidence.slots.get i = some e ↔ s.evidence.slots.get i = some e ∧ e.parityOk = true := by
  have judged (clean : Bool) (t : State) : (listenJudge p clean t).evidence = t.evidence :=
    frame_listenJudge p clean t .evidence (by decide)
  unfold listenBook
  rw [if_pos listens]
  dsimp only
  rw [settleSweep_get, judged, readLet_get]
  exact and_iff_left_of_imp fun read _ => read.2

/-- Once every entry is sound, the bookkeeping removes none. -/
theorem uplinkStep_slots {s : State} (sound : ∀ i e, s.evidence.slots.get i = some e → e.parityOk = true) (p : Port)
    (i : Fin 16) (e : LetEntry) :
    (uplinkStep s p).evidence.slots.get i = some e ↔ s.evidence.slots.get i = some e := by
  unfold uplinkStep
  split
  · by_cases listens : (s.port p).guard = .listen
    · rw [listenBook_slots true listens]
      exact and_iff_left_of_imp (sound i e)
    · rw [listenBook_away true listens]
  · rfl

theorem uplinkSteps_slots (l : List Port) {s : State}
    (sound : ∀ i e, s.evidence.slots.get i = some e → e.parityOk = true) (i : Fin 16) (e : LetEntry) :
    (l.foldl uplinkStep s).evidence.slots.get i = some e ↔ s.evidence.slots.get i = some e := by
  induction l generalizing s with
  | nil => rfl
  | cons p l ih =>
    have step := uplinkStep_slots sound p
    exact (ih fun j f entry => sound j f ((step j f).mp entry)).trans (step i e)

theorem uplinkSteps_apart {l : List Port} {q : Port} {s : State} (apart : q ∉ l) (kept : ¬ (s.port q).Freed) :
    (l.foldl uplinkStep s).port q = s.port q := by
  induction l generalizing s with
  | nil => rfl
  | cons p l ih =>
    obtain ⟨other, apart⟩ := not_or.mp (List.mem_cons.not.mp apart)
    have step : (uplinkStep s p).port q = s.port q := by
      unfold uplinkStep
      split
      · exact listenBook_apart true other kept
      · rfl
    exact (ih apart (by rw [step]; exact kept)).trans step

/-- An UPLINK port in LISTEN is judged once, and by the entries that stand at the end. -/
theorem uplinkBook_booked {p : Port} {s : State} (up : s.glink.state = .up) (uplink : (s.port p).role = .uplink)
    (listens : (s.port p).guard = .listen) : ListenBooked p (¬ Involved (uplinkBook s) p) s (uplinkBook s) := by
  obtain ⟨l, m, split⟩ := List.append_of_mem (mem_allPorts p)
  have once : (l ++ p :: m).Nodup := split ▸ ascending_nodup allPorts_ascending
  have before : p ∉ l := fun mem => (List.nodup_append.mp once).2.2 p mem p List.mem_cons_self rfl
  have after : p ∉ m := (List.nodup_cons.mp (List.nodup_append.mp once).2.1).1
  have kept : ((l.foldl uplinkStep s).port p) = s.port p := uplinkSteps_apart before (listening_not_freed listens)
  have control : (l.foldl uplinkStep s).control = s.control :=
    OnlyChanges.foldl (l := guardParts) frame_uplinkStep l s .control (by decide)
  rw [uplinkBook_up up, split, List.foldl_append, List.foldl_cons]
  generalize l.foldl uplinkStep s = u at kept control
  have listening : (u.port p).guard = .listen := by rw [kept]; exact listens
  have step : uplinkStep u p = listenBook p true u := if_pos (by rw [kept]; exact uplink)
  have judged : (listenBook p true u).port p = judgedRecord p (!(readLet u).involved p) u :=
    listenBook_port true listening
  have entries := listenBook_slots true listening
  rw [step]
  have ended : (m.foldl uplinkStep (listenBook p true u)).port p = judgedRecord p (!(readLet u).involved p) u := by
    rw [uplinkSteps_apart after (by rw [judged]; exact judgedRecord_not_freed _ listening), judged]
  have clean : ¬ Involved (m.foldl uplinkStep (listenBook p true u)) p ↔ (!(readLet u).involved p) = true := by
    rw [Bool.not_eq_true', involved_false]
    refine not_congr (involved_congr fun i e => ?_)
    rw [uplinkSteps_slots m fun j f entry => ((entries j f).mp entry).2, entries, readLet_get]
  rw [propext clean]
  exact (listenBooked_judged listening ended).congr kept.symm control.symm

/-! ### The UPLINK ports with a sound LET -/

theorem frame_uplinkStep_sound {s : State} (sound : LetSound s) (p : Port) :
    OnlyChanges [.ports, .reports] s (uplinkStep s p) := (frame_listenBook_sound p true sound).ite

theorem frame_uplinkSteps_sound (l : List Port) {s : State} (sound : LetSound s) :
    OnlyChanges [.ports, .reports] s (l.foldl uplinkStep s) := by
  induction l generalizing s with
  | nil => exact OnlyChanges.refl _ s
  | cons p l ih =>
    have step := frame_uplinkStep_sound sound p
    exact step.comp (ih (sound.congr (step .evidence (by decide)))) fun _ h => h

theorem uplinkStep_other {p q : Port} {s : State} (sound : LetSound s) (other : q ≠ p) :
    (uplinkStep s p).port q = s.port q := by
  unfold uplinkStep
  split
  · exact listenBook_other_sound true sound other
  · rfl

/-- A port that is no UPLINK port in LISTEN is not booked. -/
theorem uplinkSteps_unbooked (l : List Port) {q : Port} {s : State} (sound : LetSound s)
    (not : ¬((s.port q).role = .uplink ∧ (s.port q).guard = .listen)) : (l.foldl uplinkStep s).port q = s.port q := by
  induction l generalizing s with
  | nil => rfl
  | cons p l ih =>
    have step : (uplinkStep s p).port q = s.port q := by
      by_cases same : q = p
      · subst same
        unfold uplinkStep
        split
        · next uplink => rw [listenBook_away true fun listens => not ⟨uplink, listens⟩]
        · rfl
      · exact uplinkStep_other sound same
    have evidence := frame_uplinkStep_sound sound p .evidence (by decide)
    exact (ih (sound.congr evidence) (by rw [step]; exact not)).trans step

theorem frame_uplinkBook_sound {s : State} (sound : LetSound s) : OnlyChanges [.ports, .reports] s (uplinkBook s) :=
  (frame_uplinkSteps_sound allPorts sound).ite

theorem uplinkBook_unbooked {q : Port} {s : State} (sound : LetSound s)
    (not : ¬((s.port q).role = .uplink ∧ (s.port q).guard = .listen)) : (uplinkBook s).port q = s.port q := by
  cases link : s.glink.state with
  | up => rw [uplinkBook_up link, uplinkSteps_unbooked allPorts sound not]
  | unresponsive => rw [uplinkBook_down link]

/-- An UPLINK port that its judgement at a round start takes out of LISTEN. -/
def UplinkDone (s : State) (p : Port) : Prop := (s.port p).role = .uplink ∧ LeavesListen p (¬ Involved s p) s

theorem uplinkStep_reports {p : Port} {s : State} (sound : LetSound s) :
    (UplinkDone s p → (uplinkStep s p).reports = (report (listenDone p s) s).reports) ∧
      (¬ UplinkDone s p → (uplinkStep s p).reports = s.reports) := by
  obtain ⟨leaves, stays⟩ := listenBook_reports (p := p) (quiet := true) (Q := True) sound (by simp)
  rw [true_and] at leaves stays
  unfold uplinkStep UplinkDone
  split
  · next uplink => exact ⟨fun is => leaves is.2, fun not => stays fun is => not ⟨uplink, is⟩⟩
  · next other => exact ⟨fun is => absurd is.1 other, fun _ => rfl⟩

/-- What a list of reports leaves depends on the Report Unit and the stamp alone. -/
theorem foldl_report_congr (b : Port → ReportBody) (l : List Port) {s t : State} (h : t.reports = s.reports)
    (h' : t.clock.stamp = s.clock.stamp) :
    (l.foldl (fun u p => report (b p) u) t).reports = (l.foldl (fun u p => report (b p) u) s).reports := by
  induction l generalizing s t with
  | nil => exact h
  | cons p l ih => exact ih (report_reports_congr _ h h') (by rw [report_clock, report_clock, h'])

/-- The UPLINK ports that leave LISTEN are reported, in the order in which they are judged. -/
theorem uplinkSteps_reports (l : List Port) (once : l.Nodup) {s u : State} [DecidablePred (UplinkDone s)]
    (sound : LetSound u)
    (ports : ∀ p ∈ l, u.port p = s.port p) (evidence : u.evidence = s.evidence) (control : u.control = s.control) :
    (l.foldl uplinkStep u).reports =
      ((l.filter fun p => decide (UplinkDone s p)).foldl (fun v p => report (listenDone p s) v) u).reports := by
  induction l generalizing u with
  | nil => rfl
  | cons p l ih =>
    obtain ⟨fresh, once⟩ := List.nodup_cons.mp once
    obtain ⟨here, later⟩ := List.forall_mem_cons.mp ports
    have frame := frame_uplinkStep_sound sound p
    have rest := ih once (u := uplinkStep u p) (sound.congr (frame .evidence (by decide)))
      (fun q mem => by rw [uplinkStep_other sound (ne_of_mem_of_not_mem mem fresh), later q mem])
      ((frame .evidence (by decide)).trans evidence) ((frame .control (by decide)).trans control)
    have stamp : (uplinkStep u p).clock.stamp = u.clock.stamp :=
      congrArg IntervalClock.stamp (frame .clock (by decide))
    have same : UplinkDone u p ↔ UplinkDone s p := by
      have involved : Involved u p ↔ Involved s p := by simp only [Involved, evidence]
      rw [UplinkDone, UplinkDone, here, involved, LeavesListen.congr here control]
    obtain ⟨done, stays⟩ := uplinkStep_reports (p := p) sound
    rw [List.foldl_cons, rest]
    by_cases is : UplinkDone s p
    · rw [List.filter_cons_of_pos (by simpa using is), List.foldl_cons]
      refine foldl_report_congr _ _ ((done (same.mpr is)).trans ?_) (by rw [stamp, report_clock])
      rw [listenDone_congr here]
    · rw [List.filter_cons_of_neg (by simpa using is)]
      exact foldl_report_congr _ _ (stays (same.not.mpr is)) stamp

/-! ### A round start with sound tables and nothing old -/

theorem dealOld_none {r : Round} {s : State} (sound : OptSound s)
    (recent : ∀ i e, s.probe.opt.get i = some e → e.older r = false) : OnlyChanges [.probe] s (dealOld r s) := by
  have still (l : List (Fin 32)) {t : State} (none : l = []) (frame : OnlyChanges [.probe] s t) :
      OnlyChanges [.probe] s ((expiryOrder l t).foldl (fun u i => expireSlot i u) t) := by
    have empty : expiryOrder [] t = [] := by simp [expiryOrder]
    rw [none, empty]
    exact frame
  have left := eraseOpt_get (fun e => e.older r && decide (e.phase = .sending)) s
  unfold dealOld
  dsimp only
  rw [readOpt_sound sound]
  refine still _ ?_ (frame_eraseOpt _ s)
  generalize eraseOpt (fun e => e.older r && decide (e.phase = .sending)) s = t at left
  rw [List.filter_eq_nil_iff]
  intro i _
  split
  · next e entry => rw [recent i e ((left i e).mp entry).1]; exact Bool.false_ne_true
  · exact Bool.false_ne_true

/-- With sound tables and no older entry, a round start changes the list, the counts and the clock only. -/
theorem roundSteps_still {s : State} (sound : OptSound s)
    (recent : ∀ i e, s.probe.opt.get i = some e → e.older (nextRound s) = false) :
    OnlyChanges [.probe, .clock] s (roundSteps s) := by
  have opened : OnlyChanges [.probe, .clock] s (roundOpened s) := (frame_set_round s _ _).mono (by decide)
  have dealt : OnlyChanges [.probe] (roundOpened s) (dealOld (nextRound s) (roundOpened s)) := dealOld_none sound recent
  have relisted (t : State) : OnlyChanges [.probe] t t.relisted := frame_set_probe t _
  rw [roundSteps_eq]
  exact (opened.comp dealt (by decide)).comp (relisted _) (by decide)

/-! ### The command -/

theorem exec_roundStart {s : State} (due : s.clock.roundDue = true) :
    exec .roundStart s = .next (uplinkBook (roundSteps (expireDue s))) := by
  have clock : (expireDue s).clock = s.clock := frame_expireDue s .clock (by decide)
  show execRoundStart s = _
  rw [execRoundStart, if_pos due, takeRound, if_pos (by rw [clock]; exact due)]

/-- Expiries leave an UPLINK port in LISTEN. -/
theorem expireDue_uplink {q : Port} {s : State} (uplink : (s.port q).role = .uplink)
    (listens : (s.port q).guard = .listen) : (expireDue s).port q = s.port q := by
  have expired (l : List (Fin 32)) (t : State) (same : t.port q = s.port q) :
      (l.foldl (fun u i => expireSlot i u) t).port q = s.port q := by
    induction l generalizing t with
    | nil => exact same
    | cons i l ih =>
      refine ih _ ?_
      rw [expireSlot_uplink i (by rw [same]; exact uplink) (by rw [same]; exact listens), same]
  exact expired _ s rfl

theorem nextRound_congr {s t : State} (h : t.clock = s.clock) : nextRound t = nextRound s := by
  unfold nextRound
  rw [h]

/-- The reports of a round start with sound tables and nothing old, while the link is UP. -/
theorem uplinkBook_reports {s t : State} (still : OnlyChanges [.probe, .clock] s t) (sound : LetSound s)
    (stamp : t.clock.stamp = s.clock.stamp) (up : s.glink.state = .up) {done : List Port}
    (ascending : done.Pairwise (· < ·)) (mem : ∀ p, p ∈ done ↔ UplinkDone s p) :
    (uplinkBook t).reports = (done.foldl (fun u p => report (listenDone p s) u) s).reports := by
  classical
  have evidence : t.evidence = s.evidence := still .evidence (by decide)
  have glink : t.glink = s.glink := still .glink (by decide)
  have same : (allPorts.filter fun p => decide (UplinkDone s p)) = done := by
    refine ascending_ext (allPorts_ascending.filter _) ascending fun p => ?_
    rw [List.mem_filter, decide_eq_true_iff, mem p]
    exact and_iff_right (mem_allPorts p)
  have told := uplinkSteps_reports allPorts (ascending_nodup allPorts_ascending) (s := s) (sound.congr evidence)
    (fun p _ => port_congr (still .ports (by decide)) p) evidence (still .control (by decide))
  rw [uplinkBook_up (by rw [glink]; exact up), told]
  refine (foldl_report_congr _ _ (still .reports (by decide)) stamp).trans ?_
  rw [← same]

/-- Settles O9: the steps of a round start in turn, the UPLINK ports judged one after another. -/
theorem roundStartRebuildsTheList : Obligations.RoundStartRebuildsTheList := by
  intro s due r
  have expired := frame_expireDue s
  have rounds := frame_roundSteps (expireDue s)
  have booked := frame_uplinkBook (roundSteps (expireDue s))
  have expiredClock : (expireDue s).clock = s.clock := expired .clock (by decide)
  have expiredControl : (expireDue s).control = s.control := expired .control (by decide)
  have next : nextRound (expireDue s) = r := nextRound_congr expiredClock
  have glink : (roundSteps (expireDue s)).glink = s.glink :=
    (rounds .glink (by decide)).trans (expired .glink (by decide))
  have probe : (uplinkBook (roundSteps (expireDue s))).probe = (roundSteps (expireDue s)).probe :=
    booked .probe (by decide)
  have clock : (uplinkBook (roundSteps (expireDue s))).clock =
      { s.clock with round := some r, timer := 0, base := some s.control.policy.tRND, roundDue := false } := by
    rw [booked .clock (by decide), roundSteps_clock, next, expiredClock, expiredControl]
  obtain ⟨list, skipped⟩ := expireAll_list (dueSlots s) s
  refine ⟨_, exec_roundStart due, ?_, clock, ?_, fun i e entry => ?_, ?_,
    fun p uplink listens => ⟨fun up => ?_, fun down => ?_⟩, fun opt sound recent => ?_⟩
  · exact ((expired.mono (by decide)).comp rounds fun _ h => h).comp booked (by decide)
  · rw [probe, roundSteps_skipped, expireDue, skipped, list]
  · rw [probe] at entry
    exact next ▸ roundSteps_recent entry
  · rw [probe, roundSteps_list (kept_uplinkBook _), expired .glink (by decide), expiredControl]
    simp only [probeable_eq]
  · have same := expireDue_uplink uplink listens
    have same' : (roundSteps (expireDue s)).port p = s.port p :=
      (roundSteps_uplink (by rw [same]; exact uplink) (by rw [same]; exact listens)).trans same
    exact (uplinkBook_booked (by rw [glink]; exact up) (by rw [same']; exact uplink)
      (by rw [same']; exact listens)).congr same'.symm ((rounds .control (by decide)).trans expiredControl).symm
  · have same := expireDue_uplink uplink listens
    rw [uplinkBook_down (by rw [glink]; exact down),
      roundSteps_uplink (by rw [same]; exact uplink) (by rw [same]; exact listens), same]
  · have none : expireDue s = s := by
      rw [expireDue, dueSlots_none fun i e entry _ => (recent i e entry).1]
      rfl
    have still : OnlyChanges [.probe, .clock] s (roundSteps s) := by
      refine roundSteps_still opt fun i e entry => decide_eq_false ?_
      rw [not_and_or, not_not, not_not]
      exact (recent i e entry).2.imp_right fun before => by rw [← next, none] at before; rw [← before]; bv_omega
    have evidence : (roundSteps s).evidence = s.evidence := still .evidence (by decide)
    rw [none] at glink ⊢
    refine ⟨?_, fun q not => ?_, fun down => ?_, fun up done ascending mem => ?_⟩
    · exact (frame_uplinkBook_sound (sound.congr evidence) .evidence (by decide)).trans evidence
    · have same : (roundSteps s).port q = s.port q := port_congr (still .ports (by decide)) q
      rw [uplinkBook_unbooked (sound.congr evidence) (by rw [same]; exact not), same]
    · rw [uplinkBook_down (by rw [glink]; exact down)]
      exact still .reports (by decide)
    · exact uplinkBook_reports still sound (roundSteps_stamp s) up ascending mem

end Sys2Proof.Machine
end

section
/-! SUPPORT. A sighting with a sound LET (R59 to R65): the entry it raises or makes, what the check for confirmation
makes of that entry, and the guard events in their order. -/

namespace Sys2Proof.Machine

/-! ### The check for confirmation -/

/-- The check after a sighting confirms the entry: by its count, or by a trip flag of either port (R63). -/
def LetEntry.Confirms (s : State) (e : LetEntry) : Prop :=
  s.control.policy.nCONF ≤ e.count ∨ (s.port e.egress).trip = true ∨ (s.port e.ingress).trip = true

/-- The entry that a confirmation writes (R63). -/
def LetEntry.raisedTo (nCONF : Nat) (e : LetEntry) : LetEntry :=
  { e with count := max e.count nCONF, confirmed := true }

theorem confirmSlot_eq {i : Fin 16} {e : LetEntry} {s : State} (entry : s.evidence.slots.get i = some e) :
    confirmSlot i s =
      confirmEffects (e.raisedTo s.control.policy.nCONF) (!e.confirmed)
        (writeLet i (e.raisedTo s.control.policy.nCONF) s) := by
  unfold confirmSlot
  simp only [entry]
  rfl

theorem confirmCheck_yes {i : Fin 16} {e : LetEntry} {s : State} (entry : s.evidence.slots.get i = some e)
    (confirms : e.Confirms s) : confirmCheck i s = confirmSlot i s := by
  unfold confirmCheck
  simp only [entry]
  exact if_pos confirms

theorem confirmCheck_no {i : Fin 16} {e : LetEntry} {s : State} (entry : s.evidence.slots.get i = some e)
    (unconfirmed : ¬ e.Confirms s) : confirmCheck i s = s := by
  unfold confirmCheck
  simp only [entry]
  exact if_neg unconfirmed

theorem confirmSlot_get {i : Fin 16} {e : LetEntry} {s : State} (entry : s.evidence.slots.get i = some e)
    (k : Fin 16) :
    (confirmSlot i s).evidence.slots.get k =
      if k = i then some (e.confirmedBy s.control.policy.nCONF) else s.evidence.slots.get k := by
  have effects (f : LetEntry) (first : Bool) (t : State) : (confirmEffects f first t).evidence = t.evidence :=
    frame_confirmEffects f first t .evidence (by decide)
  rw [confirmSlot_eq entry, effects, writeLet_get]
  rfl

/-- The check keeps the pair, the victim and the time of the entry, and does not lower its count; other slots stay. -/
theorem confirmCheck_slots {i : Fin 16} {e : LetEntry} {s : State} (entry : s.evidence.slots.get i = some e) :
    (∃ f, (confirmCheck i s).evidence.slots.get i = some f ∧ f.egress = e.egress ∧ f.ingress = e.ingress ∧
      f.victim = e.victim ∧ f.firstSeen = e.firstSeen ∧ e.count ≤ f.count ∧
      (e.parityOk = true → f.parityOk = true)) ∧
    ∀ k, k ≠ i → (confirmCheck i s).evidence.slots.get k = s.evidence.slots.get k := by
  by_cases confirms : e.Confirms s
  · rw [confirmCheck_yes entry confirms]
    refine ⟨⟨e.confirmedBy s.control.policy.nCONF, ?_, rfl, rfl, rfl, rfl, Nat.le_max_left _ _, fun _ => rfl⟩,
      fun k other => ?_⟩
    · rw [confirmSlot_get entry, if_pos rfl]
    · rw [confirmSlot_get entry, if_neg other]
  · rw [confirmCheck_no entry confirms]
    exact ⟨⟨e, entry, rfl, rfl, rfl, rfl, Nat.le_refl _, id⟩, fun _ _ => rfl⟩

/-- The counts of the Evidence Unit stay through the check. -/
theorem confirmCheck_counts (i : Fin 16) (s : State) :
    (confirmCheck i s).evidence.evictions = s.evidence.evictions ∧
      (confirmCheck i s).evidence.sweepOwed = s.evidence.sweepOwed := by
  have effects (f : LetEntry) (first : Bool) (t : State) : (confirmEffects f first t).evidence = t.evidence :=
    frame_confirmEffects f first t .evidence (by decide)
  cases entry : s.evidence.slots.get i with
  | none =>
    have same : confirmCheck i s = s := by
      unfold confirmCheck
      simp only [entry]
    rw [same]
    exact ⟨rfl, rfl⟩
  | some e =>
    by_cases confirms : e.Confirms s
    · rw [confirmCheck_yes entry confirms, confirmSlot_eq entry, effects]
      exact ⟨rfl, rfl⟩
    · rw [confirmCheck_no entry confirms]
      exact ⟨rfl, rfl⟩

/-! ### A pair that stands -/

theorem creditSlot_eq {i : Fin 16} {e : LetEntry} {s : State} (entry : s.evidence.slots.get i = some e) :
    creditSlot i s = confirmCheck i (writeLet i { e with count := min Config.cleanMax (e.count + 1) } s) := by
  unfold creditSlot
  simp only [entry]

/-- A sighting of a standing pair raises the count of its entry (R59). -/
theorem creditSlot_slot {i : Fin 16} {e : LetEntry} {s : State} (entry : s.evidence.slots.get i = some e) :
    ∃ f, (creditSlot i s).evidence.slots.get i = some f ∧ f.egress = e.egress ∧ f.ingress = e.ingress ∧
      f.victim = e.victim ∧ f.firstSeen = e.firstSeen ∧ min 7 (e.count + 1) ≤ f.count := by
  have written : (writeLet i { e with count := min Config.cleanMax (e.count + 1) } s).evidence.slots.get i =
      some { e with count := min Config.cleanMax (e.count + 1), parityOk := true } := by
    rw [writeLet_get, if_pos rfl]
  obtain ⟨⟨f, slot, egress, ingress, victim, seen, count, -⟩, -⟩ := confirmCheck_slots written
  rw [creditSlot_eq entry]
  exact ⟨f, slot, egress, ingress, victim, seen, count⟩

theorem creditSlot_owed (i : Fin 16) (s : State) :
    (creditSlot i s).evidence.sweepOwed = s.evidence.sweepOwed := by
  cases entry : s.evidence.slots.get i with
  | none =>
    have same : creditSlot i s = s := by
      unfold creditSlot
      simp only [entry]
    rw [same]
  | some e => rw [creditSlot_eq entry, (confirmCheck_counts i _).2]; rfl

/-! ### A new pair -/

/-- A new entry takes the lowest free slot, or that of the entry a full table evicts (R60, R61). -/
def Seat (s : State) (m : Fin 16) : Prop :=
  s.evidence.slots.get m = none ∧ (∀ j, j < m → (s.evidence.slots.get j).isSome = true) ∨
    (∀ j, (s.evidence.slots.get j).isSome = true) ∧ evictChoice s = some m

/-- The state with the eviction counted, if the slot is occupied (R61). -/
def evicting (m : Fin 16) (s : State) : State :=
  if (s.evidence.slots.get m).isSome then
    { s with evidence := { s.evidence with evictions := satInc s.evidence.evictions } }
  else s

theorem frame_evicting (m : Fin 16) (s : State) : OnlyChanges [.evidence] s (evicting m s) :=
  OnlyChanges.ite (frame_set_evidence s _)

theorem evicting_slots (m : Fin 16) (s : State) : (evicting m s).evidence.slots = s.evidence.slots := by
  unfold evicting
  split <;> rfl

theorem createEntry_seat {x y : Port} {s : State} {m : Fin 16} (seat : Seat s m) :
    createEntry x y s = createIn m x y (victimAt m s) (evicting m s) := by
  unfold createEntry evicting
  rcases seat with ⟨free, below⟩ | ⟨full, choice⟩
  · have lowest : freeLet s = some m := find_lowest (by rw [free]; rfl) fun j hj => by simpa using below j hj
    have victim : victimAt m s = none := by rw [victimAt, free]; rfl
    simp only [lowest, victim, free, Option.isSome_none, Bool.false_eq_true, if_false]
  · have none : freeLet s = none :=
      List.find?_eq_none.mpr fun i _ => by simp [Option.isSome_iff_ne_none.mp (full i)]
    simp only [none, choice, full m, if_true]

theorem exists_seat (s : State) : ∃ m, Seat s m := by
  by_cases full : ∀ j, (s.evidence.slots.get j).isSome = true
  · obtain ⟨m, choice, -⟩ := evictChoice_first full
    exact ⟨m, Or.inr ⟨full, choice⟩⟩
  · obtain ⟨j, free⟩ := not_forall.mp full
    have some : ∃ i, ∃ h : i < 16, s.evidence.slots.get ⟨i, h⟩ = none :=
      ⟨j.val, j.isLt, Option.not_isSome_iff_eq_none.mp free⟩
    obtain ⟨h, least⟩ := Nat.find_spec some
    refine ⟨⟨Nat.find some, h⟩, Or.inl ⟨least, fun j hj => ?_⟩⟩
    have occupied := Nat.find_min some hj
    rw [Option.isSome_iff_ne_none]
    exact fun free => occupied ⟨j.isLt, free⟩

/-- The state in which a new entry is checked: it is written, and its guard events are done (R60 steps 2 to 4). -/
def entered (m : Fin 16) (x y : Port) (v : Option Port) (s : State) : State :=
  newVictimEvidence (newEntry x y s).victim (evictedGone v (writeLet m (newEntry x y s) s))

theorem createIn_eq (m : Fin 16) (x y : Port) (v : Option Port) (s : State) :
    createIn m x y v s = confirmCheck m (entered m x y v s) := rfl

theorem frame_entered (m : Fin 16) (x y : Port) (v : Option Port) (s : State) :
    OnlyChanges [.ports, .reports] (writeLet m (newEntry x y s) s) (entered m x y v s) :=
  (frame_evictedGone _ _).comp (frame_newVictimEvidence _ _) fun _ h => h

theorem entered_slot (m : Fin 16) (x y : Port) (v : Option Port) (s : State) (k : Fin 16) :
    (entered m x y v s).evidence.slots.get k = if k = m then some (newEntry x y s) else s.evidence.slots.get k := by
  rw [frame_entered m x y v s .evidence (by decide), writeLet_get]
  rfl

theorem entered_confirms (m : Fin 16) (x y : Port) (v : Option Port) (s : State) :
    (newEntry x y s).Confirms (entered m x y v s) ↔
      s.control.policy.nCONF ≤ 1 ∨ (s.port x).trip = true ∨ (s.port y).trip = true := by
  have kept : Kept s (entered m x y v s) :=
    ((kept_writeLet _ _ _).trans (kept_evictedGone _ _)).trans (kept_newVictimEvidence _ _)
  have control : (entered m x y v s).control = s.control := frame_entered m x y v s .control (by decide)
  show (entered m x y v s).control.policy.nCONF ≤ 1 ∨ ((entered m x y v s).port x).trip = true ∨
    ((entered m x y v s).port y).trip = true ↔ _
  rw [control, (kept x).trip, (kept y).trip]

theorem createIn_owed (m : Fin 16) (x y : Port) (v : Option Port) (s : State) :
    (createIn m x y v s).evidence.sweepOwed = s.evidence.sweepOwed ∧
      (createIn m x y v s).evidence.evictions = s.evidence.evictions := by
  obtain ⟨evictions, owed⟩ := confirmCheck_counts m (entered m x y v s)
  have evidence := frame_entered m x y v s .evidence (by decide)
  rw [createIn_eq, evictions, owed, evidence]
  exact ⟨rfl, rfl⟩

theorem createEntry_owed (x y : Port) (s : State) :
    (createEntry x y s).evidence.sweepOwed = s.evidence.sweepOwed := by
  obtain ⟨m, seat⟩ := exists_seat s
  rw [createEntry_seat seat, (createIn_owed ..).1]
  unfold evicting
  split <;> rfl

/-! ### A sighting with a sound LET -/

theorem sighting_stands {x y : Port} {s : State} {i : Fin 16} (sound : LetSound s) (found : findLet x y s = some i) :
    sighting x y s = creditSlot i s := by
  unfold sighting
  rw [readLet_sound sound]
  simp only [found]
  exact settleSweep_clear ((creditSlot_owed i s).trans sound.1)

theorem sighting_new {x y : Port} {s : State} (sound : LetSound s) (none : findLet x y s = none) :
    sighting x y s = createEntry x y s := by
  unfold sighting
  rw [readLet_sound sound]
  simp only [none]
  exact settleSweep_clear ((createEntry_owed x y s).trans sound.1)

end Sys2Proof.Machine
end

section
/-! SUPPORT. A credited catch (R47, R48): its guard events in their order, and the entry in which it ends (R60 to
R65). -/

namespace Sys2Proof.Machine

/-! ### The guard events of a new entry -/

/-- Evidence for the victim of a new entry is what the statements say of it. -/
theorem evidenceGiven_newVictim (v : Option Port) (s : State) : EvidenceGiven v s (newVictimEvidence v s) := by
  cases v with
  | none => exact ⟨nofun, nofun, fun _ _ => rfl, fun _ => rfl⟩
  | some p =>
    show EvidenceGiven (some p) s (evidenceEvent p s)
    have kept (away : (s.port p).guard ≠ .forward ∧ (s.port p).guard ≠ .listen) (same : evidenceEvent p s = s) :
        EvidenceGiven (some p) s (evidenceEvent p s) := by
      rw [same]
      exact
        { forward := fun q is g => absurd g (Option.some.inj is ▸ away.1)
          listen := fun q is g => absurd g (Option.some.inj is ▸ away.2)
          kept := fun _ _ => rfl
          silent := fun _ => rfl }
    cases g : (s.port p).guard with
    | forward =>
      have moved : evidenceEvent p s = goPlain p .suspect .evidence s := by
        unfold evidenceEvent
        simp only [g]
      rw [moved]
      refine ⟨fun q is _ => ?_, fun q is h => ?_, fun q is => ?_, fun none => absurd g (none p rfl)⟩
      · obtain rfl := Option.some.inj is
        rw [goPlain_port, if_pos rfl, goPlain_reports, g]
        exact ⟨enter_entered _ _, rfl⟩
      · obtain rfl := Option.some.inj is
        rw [g] at h
        cases h
      · rw [goPlain_port, if_neg]
        rintro rfl
        exact is.elim (fun other => other rfl) fun other => other.1 g
    | listen =>
      have counted : evidenceEvent p s = s.modPort p fun r => { r with listen := 0 } := by
        unfold evidenceEvent
        simp only [g]
      rw [counted]
      refine ⟨fun q is h => ?_, fun q is _ => ?_, fun q is => ?_, fun _ => rfl⟩
      · obtain rfl := Option.some.inj is
        rw [g] at h
        cases h
      · obtain rfl := Option.some.inj is
        exact port_modPort_self ..
      · refine port_modPort_ne _ _ ?_
        rintro rfl
        exact is.elim (fun other => other rfl) fun other => other.2 g
    | suspect => exact kept (by rw [g]; decide) (by unfold evidenceEvent; simp only [g])
    | throttle => exact kept (by rw [g]; decide) (by unfold evidenceEvent; simp only [g])
    | blocked => exact kept (by rw [g]; decide) (by unfold evidenceEvent; simp only [g])
    | down => exact kept (by rw [g]; decide) (by unfold evidenceEvent; simp only [g])
    | disabled => exact kept (by rw [g]; decide) (by unfold evidenceEvent; simp only [g])

theorem confirmEvent_reports {p : Port} {s : State} (blockable : (s.port p).guard.blockable = true) :
    (confirmEvent p s).reports = (report (.state p (s.port p).guard .blocked .confirm) s).reports := by
  unfold confirmEvent
  rw [if_pos blockable, goBlocked, moveGuard_reports, port_modPort_self]
  exact report_reports_congr _ rfl rfl

/-- The effects of a first confirmation are what the statements say of them. -/
theorem firstConfirmed_effects (e : LetEntry) (s : State) :
    FirstConfirmed e.victim e.egress e.ingress e.count s (confirmEffects e true s) := by
  have clock (p : Port) : (confirmEvent p s).clock = s.clock := frame_confirmEvent p s .clock (by decide)
  refine ⟨fun p victim guards => ?_, fun p victim guards => ?_, fun none => ?_, fun q other => ?_⟩
  · have blockable := (blockable_iff _).mpr guards
    have port : (confirmEffects e true s).port p = (s.port p).struck s.control.policy.tHOLD0 := by
      rw [confirmEffects_port, if_pos ⟨victim, blockable⟩]
    have strike : ((confirmEvent p s).port p).strike = min 6 ((s.port p).strike + 1) := by
      rw [confirmEvent_port, if_pos ⟨rfl, blockable⟩, (struck_counts _ _).1]
      rfl
    obtain ⟨guard, listen, throttle, hold, decay, struck, -⟩ :=
      enter_spec ({ s.port p with strike := strikeUp (s.port p).strike } : PortRec) .blocked 0
        (holdFor s.control.policy.tHOLD0 (strikeUp (s.port p).strike))
    have told : (confirmEffects e true s).reports =
        (report (.loop p e.egress e.ingress e.count (min 6 ((s.port p).strike + 1))) (confirmEvent p s)).reports := by
      unfold confirmEffects
      simp only [victim, blockable, if_true, strike]
    rw [port]
    refine ⟨guard, struck, hold, listen, throttle, decay, told.trans ?_⟩
    exact report_reports_congr _ (confirmEvent_reports blockable) (by rw [clock, report_clock])
  · have not : (s.port p).guard.blockable = false := by
      rcases guards with g | g | g <;> rw [g] <;> rfl
    have same : confirmEffects e true s = s := by
      unfold confirmEffects confirmEvent
      simp only [victim, not, Bool.false_eq_true, if_false]
    rw [same]
    exact ⟨rfl, rfl⟩
  · unfold confirmEffects
    simp only [none, if_true]
  · rw [confirmEffects_port, if_neg fun h => other h.1]

theorem EvidenceGone.of_target {gone : List Port} {s t t' : State} (h : EvidenceGone gone s t)
    (ports : ∀ p, t'.port p = t.port p) (reports : t'.reports = t.reports) : EvidenceGone gone s t' where
  suspect v := by rw [ports]; exact h.suspect v
  blocked v := by rw [ports]; exact h.blocked v
  kept v := by rw [ports]; exact h.kept v
  reports := reports.trans h.reports

theorem EvidenceGiven.congr {v : Option Port} {s s' t t' : State} (h : EvidenceGiven v s t)
    (ports : ∀ p, s'.port p = s.port p) (reports : s'.reports = s.reports)
    (stamp : s'.clock.stamp = s.clock.stamp) (ports' : ∀ p, t'.port p = t.port p) (reports' : t'.reports = t.reports) :
    EvidenceGiven v s' t' where
  forward p is g := by
    obtain ⟨entered, told⟩ := h.forward p is (ports p ▸ g)
    rw [ports, ports', reports', told]
    exact ⟨entered, report_reports_congr _ reports.symm stamp.symm⟩
  listen p is g := by rw [ports, ports']; exact h.listen p is (ports p ▸ g)
  kept p is := by rw [ports, ports']; exact h.kept p (by rw [← ports]; exact is)
  silent is := by rw [reports, reports']; exact h.silent fun p v => by rw [← ports]; exact is p v

theorem FirstConfirmed.congr {v : Option Port} {x y : Port} {count : Nat} {s s' t : State}
    (h : FirstConfirmed v x y count s t) (ports : ∀ p, s'.port p = s.port p) (reports : s'.reports = s.reports)
    (stamp : s'.clock.stamp = s.clock.stamp) (control : s'.control = s.control) : FirstConfirmed v x y count s' t where
  blocks p is g := by
    rw [ports] at g ⊢
    rw [control]
    obtain ⟨guard, strike, hold, listen, throttle, decay, told⟩ := h.blocks p is g
    refine ⟨guard, strike, hold, listen, throttle, decay, told.trans ?_⟩
    exact report_reports_congr _ (report_reports_congr _ reports.symm stamp.symm)
      (by rw [report_clock, report_clock, stamp])
  stays p is g := by
    rw [ports] at g ⊢
    rw [reports]
    exact h.stays p is g
  unowned is := (h.unowned is).trans (report_reports_congr _ reports.symm stamp.symm)
  others q is := by rw [ports]; exact h.others q is

/-- The victim of an evicted entry is given evidence-gone if no entry names it. -/
theorem evictedGone_eq {v : Option Port} {s : State} {gone : List Port} (ascending : gone.Pairwise (· < ·))
    (mem : ∀ z, z ∈ gone ↔ v = some z ∧ ¬ Named s z) : evictedGone v s = allGone gone s := by
  have list (l : List Port) (sorted : l.Pairwise (· < ·)) (same : ∀ z, z ∈ l ↔ v = some z ∧ ¬ Named s z) :
      gone = l := ascending_ext ascending sorted fun z => (mem z).trans (same z).symm
  cases v with
  | none => rw [list [] List.Pairwise.nil (by simp)]; rfl
  | some p =>
    by_cases named : Named s p
    · rw [list [] List.Pairwise.nil (by simpa using named)]
      exact if_pos ((named_iff s p).mpr named)
    · rw [list [p] (List.pairwise_singleton _ _) fun z => ?_]
      · exact if_neg fun h => named ((named_iff s p).mp h)
      · rw [List.mem_singleton, Option.some.injEq, eq_comm]
        exact ⟨fun h => ⟨h, h ▸ named⟩, fun h => h.1⟩

/-! ### The events of a new entry, up to the check for confirmation -/

theorem newEntry_congr {x y : Port} {s t : State} (port : ∀ p, t.port p = s.port p) (order : t.order = s.order)
    (stamp : t.clock.stamp = s.clock.stamp) : newEntry x y t = newEntry x y s := by
  unfold newEntry chooseVictim
  rw [port, port, order, stamp]

/-- The state `w` with the ports and the Report Unit of `s`. -/
def State.seenAs (w s : State) : State := { w with ports := s.ports, reports := s.reports }

theorem frame_seenAs (w s : State) : OnlyChanges [.ports, .reports] w (w.seenAs s) := by
  intro a ha
  cases a <;> first | rfl | (exfalso; revert ha; decide)

theorem seenAs_port (w s : State) (p : Port) : (w.seenAs s).port p = s.port p := port_congr rfl p

/-- What a new entry in the slot `m` makes of the LET (R60, R61, R63). -/
theorem createIn_slots {m : Fin 16} {x y : Port} {v : Option Port} {s : State} :
    ((newEntry x y s).Confirms (entered m x y v s) →
      (createIn m x y v s).evidence.slots.get m = some ((newEntry x y s).confirmedBy s.control.policy.nCONF)) ∧
      (¬ (newEntry x y s).Confirms (entered m x y v s) →
        (createIn m x y v s).evidence.slots.get m = some (newEntry x y s)) ∧
      ∀ k, k ≠ m → (createIn m x y v s).evidence.slots.get k = s.evidence.slots.get k := by
  have entry : (entered m x y v s).evidence.slots.get m = some (newEntry x y s) := by rw [entered_slot, if_pos rfl]
  have control : (entered m x y v s).control = s.control := frame_entered m x y v s .control (by decide)
  rw [createIn_eq]
  refine ⟨fun confirms => ?_, fun unconfirmed => ?_, fun k other => ?_⟩
  · rw [confirmCheck_yes entry confirms, confirmSlot_get entry, if_pos rfl, control]
  · rw [confirmCheck_no entry unconfirmed, entry]
  · rw [(confirmCheck_slots entry).2 k other, entered_slot, if_neg other]

/-- The check leaves the victims that the entries name. -/
theorem createIn_named {m : Fin 16} {x y : Port} {v : Option Port} {s : State} (z : Port) :
    Named (createIn m x y v s) z ↔ Named (writeLet m (newEntry x y s) s) z := by
  have entry : (entered m x y v s).evidence.slots.get m = some (newEntry x y s) := by rw [entered_slot, if_pos rfl]
  have evidence : (entered m x y v s).evidence = (writeLet m (newEntry x y s) s).evidence :=
    frame_entered m x y v s .evidence (by decide)
  obtain ⟨⟨f, slot, -, -, victim, -⟩, others⟩ := confirmCheck_slots entry
  rw [evidence] at entry others
  rw [createIn_eq]
  constructor
  · rintro ⟨k, e, h, is⟩
    by_cases same : k = m
    · subst same
      obtain rfl := Option.some.inj (slot.symm.trans h)
      exact ⟨k, _, entry, victim.symm.trans is⟩
    · exact ⟨k, e, (others k same).symm.trans h, is⟩
  · rintro ⟨k, e, h, is⟩
    by_cases same : k = m
    · subst same
      obtain rfl := Option.some.inj (entry.symm.trans h)
      exact ⟨k, f, slot, victim.trans is⟩
    · exact ⟨k, e, (others k same).trans h, is⟩

/-- The guard events of a new entry, seen from a state `w` that differs in the tables and the link receiver only. -/
theorem createIn_events {m : Fin 16} {x y : Port} {v : Option Port} {s w : State}
    (like : OnlyChanges [.probe, .evidence, .glink] w s) {gone : List Port} (ascending : gone.Pairwise (· < ·))
    (mem : ∀ z, z ∈ gone ↔ v = some z ∧ ¬ Named (createIn m x y v s) z) :
    ∃ u a, OnlyChanges [.ports, .reports] w u ∧ OnlyChanges [.ports, .reports] u a ∧ EvidenceGone gone w u ∧
      EvidenceGiven (newEntry x y s).victim u a ∧
      (¬ (newEntry x y s).Confirms (entered m x y v s) →
        (createIn m x y v s).ports = a.ports ∧ (createIn m x y v s).reports = a.reports) ∧
      ((newEntry x y s).Confirms (entered m x y v s) →
        FirstConfirmed (newEntry x y s).victim x y (max 1 s.control.policy.nCONF) a (createIn m x y v s)) := by
  have written : OnlyChanges [.probe, .evidence, .glink] w (writeLet m (newEntry x y s) s) :=
    like.comp (frame_writeLet _ _ _) (by decide)
  have gone' : evictedGone v (writeLet m (newEntry x y s) s) = allGone gone (writeLet m (newEntry x y s) s) :=
    evictedGone_eq ascending fun z => (mem z).trans (by rw [createIn_named])
  have left := frame_evictedGone v (writeLet m (newEntry x y s) s)
  have given := evidenceGiven_newVictim (newEntry x y s).victim (evictedGone v (writeLet m (newEntry x y s) s))
  have entry : (entered m x y v s).evidence.slots.get m = some (newEntry x y s) := by rw [entered_slot, if_pos rfl]
  have control : (entered m x y v s).control = s.control := frame_entered m x y v s .control (by decide)
  have stamp : w.clock.stamp = (evictedGone v (writeLet m (newEntry x y s) s)).clock.stamp := by
    rw [left .clock (by decide), written .clock (by decide)]
  have clock : (entered m x y v s).clock = w.clock :=
    (frame_entered m x y v s .clock (by decide)).trans (written .clock (by decide))
  refine ⟨w.seenAs (evictedGone v (writeLet m (newEntry x y s) s)), w.seenAs (entered m x y v s), frame_seenAs _ _,
    frame_seenAs (w.seenAs (evictedGone v (writeLet m (newEntry x y s) s))) (entered m x y v s), ?_, ?_,
    fun unconfirmed => ?_, fun confirms => ?_⟩
  · rw [gone']
    exact ((allGone_evidenceGone (ascending_nodup ascending) _).congr
      (fun p => (port_congr (written .ports (by decide)) p).symm) (written .reports (by decide)).symm
      (congrArg IntervalClock.stamp (written .clock (by decide)).symm)).of_target (seenAs_port _ _) rfl
  · exact given.congr (seenAs_port _ _) rfl stamp (seenAs_port _ _) rfl
  · rw [createIn_eq, confirmCheck_no entry unconfirmed]
    exact ⟨rfl, rfl⟩
  · rw [createIn_eq, confirmCheck_yes entry confirms, confirmSlot_eq entry, control]
    have seen (f : LetEntry) : ∀ p, (w.seenAs (entered m x y v s)).port p = (writeLet m f (entered m x y v s)).port p :=
      fun p => (seenAs_port _ _ p).trans (port_congr rfl p).symm
    have same : w.control = (entered m x y v s).control := (like .control (by decide)).symm.trans control.symm
    have effects := firstConfirmed_effects ((newEntry x y s).raisedTo s.control.policy.nCONF)
      (writeLet m ((newEntry x y s).raisedTo s.control.policy.nCONF) (entered m x y v s))
    exact effects.congr (seen _) rfl (congrArg IntervalClock.stamp clock.symm) same

end Sys2Proof.Machine
end

section
/-! SUPPORT. A credited catch as a command (R47, R48, R59 to R65). -/

namespace Sys2Proof.Machine

theorem mem_insertPort (p z : Port) (l : List Port) : z ∈ insertPort p l ↔ z = p ∨ z ∈ l := by
  induction l with
  | nil => simp [insertPort]
  | cons q l ih =>
    unfold insertPort
    split
    · rw [List.mem_cons]
    · split
      · next same => subst same; simp
      · rw [List.mem_cons, ih, List.mem_cons]
        tauto

/-! ### Up to the sighting -/

/-- The state in which a credited catch is a sighting: the part has woken, and the ingress has joined the caught set. -/
def credited (i : Fin 32) (y : Port) (e : OptEntry) (s : State) : State :=
  writeOpt i { e with caught := insertPort y e.caught } (s.woken .caught y)

theorem frame_credited (i : Fin 32) (y : Port) (e : OptEntry) (s : State) :
    OnlyChanges [.control, .reports, .probe] s (credited i y e s) :=
  ((frame_woken .caught y s).mono (by decide)).comp (frame_writeOpt _ _ _) (by decide)

theorem woken_control (k : WakeKind) (p : Port) (s : State) :
    (s.control.mode = .rest → (s.woken k p).control.mode = .managed) ∧
      (s.control.mode ≠ .rest → (s.woken k p).control = s.control) ∧
      (s.woken k p).control.policy = s.control.policy := by
  unfold State.woken
  split
  · next rest => exact ⟨fun _ => rfl, fun awake => absurd rest awake, rfl⟩
  · next awake => exact ⟨fun rest => absurd rest awake, fun _ => rfl, rfl⟩

/-- `c` is the state in which the credited catch `s` takes is a sighting of its pair. -/
structure Credits (s : State) (yp : Port) (i : Fin 32) (e : OptEntry) (c : State) : Prop where
  frame : OnlyChanges [.glink, .arbiter, .reports, .control, .probe] s c
  control : c.control = (s.woken .caught yp).control
  opt : ∀ j, c.probe.opt.get j =
    if j = i then some { e with caught := insertPort yp e.caught } else s.probe.opt.get j
  like : s.glink.state = .up → OnlyChanges [.probe, .evidence, .glink] (s.woken .caught yp) c

theorem credited_opt {i : Fin 32} {y : Port} {e : OptEntry} {s : State} (ok : e.parityOk = true) (j : Fin 32) :
    (credited i y e s).probe.opt.get j =
      if j = i then some { e with caught := insertPort y e.caught } else s.probe.opt.get j := by
  have probe : (s.woken .caught y).probe = s.probe := frame_woken _ _ s .probe (by decide)
  rw [credited, writeOpt_get, probe, ← ok]

/-- A catch that is credited: the link is UP again, and the sighting follows. -/
theorem exec_catch_credited {s : State} {yp : Port} {i : Fin 32} {e : OptEntry} (loaded : s.control.loading = false)
    (sound : OptSound s) (present : (s.port yp).present = true) (up : (s.port yp).linkUp = true)
    (entry : s.probe.opt.get i = some e) (new : yp ∉ e.caught)
    (one : ∀ j f, s.probe.opt.get j = some f → f.round = e.round → f.egress = e.egress → j = i) :
    ∃ c, Credits s yp i e c ∧
      exec (.catchRecord (portField yp) (portField e.egress) e.round s.identity) s =
        .next (sighting e.egress yp c) := by
  have frame : OnlyChanges [.glink, .arbiter, .reports] s
      (linkReturns (portField yp) .catchRecord (recordDone s)) :=
    (OnlyChanges.mono (frame_set_glink s _) (by decide)).comp (frame_linkReturns _ _ _) (by decide)
  have still (link : s.glink.state = .up) : linkReturns (portField yp) .catchRecord (recordDone s) = s.received :=
    if_neg (by rw [show (recordDone s).glink.state = .up from link]; decide)
  have run : exec (.catchRecord (portField yp) (portField e.egress) e.round s.identity) s =
      .next (catchAtProbe (portField yp) (portField e.egress) e.round s.identity
        (linkReturns (portField yp) .catchRecord (recordDone s))) := by
    show execCatch _ _ _ _ s = _
    simp only [execCatch, inbound, loaded, Bool.false_eq_true, if_false]
  generalize linkReturns (portField yp) .catchRecord (recordDone s) = w at frame still run
  have probe : w.probe = s.probe := frame .probe (by decide)
  have port (p : Port) : w.port p = s.port p := port_congr (frame .ports (by decide)) p
  have identity : w.identity = s.identity := frame .identity (by decide)
  have credit := frame_credited i yp e w
  refine ⟨credited i yp e w, ⟨?_, ?_, fun j => ?_, fun link => ?_⟩, run.trans (congrArg _ ?_)⟩
  · exact (frame.mono (by decide)).comp credit (by decide)
  · exact woken_control_congr _ _ (frame .control (by decide))
  · rw [credited_opt (sound i e entry), probe]
  · rw [still link, credited, woken_received]
    exact (OnlyChanges.mono (frame_set_glink _ _) (by decide)).comp (frame_writeOpt _ _ _) (by decide)
  · rw [← identity, catchAtProbe_ports, catchOn_found (sound.congr probe) (by rw [port]; exact present)
      (by rw [port]; exact up) (by rw [probe]; exact entry) rfl rfl (by rw [probe]; exact one),
      catchFound_credited (by rw [probe]; exact entry) new]
    rfl

/-! ### The sighting -/

/-- A new pair has an entry of its own in the end (R60). -/
theorem createEntry_slot (x y : Port) (s : State) :
    ∃ j l, (createEntry x y s).evidence.slots.get j = some l ∧ l.egress = x ∧ l.ingress = y ∧ 1 ≤ l.count ∧
      l.firstSeen = s.clock.stamp ∧ l.victim = chooseVictim x y s := by
  obtain ⟨m, seat⟩ := exists_seat s
  have frame := frame_evicting m s
  have new : newEntry x y (evicting m s) = newEntry x y s :=
    newEntry_congr (port_congr (frame .ports (by decide))) (frame .order (by decide))
      (congrArg IntervalClock.stamp (frame .clock (by decide)))
  obtain ⟨confirmed, plain, -⟩ := createIn_slots (m := m) (x := x) (y := y) (v := victimAt m s) (s := evicting m s)
  rw [new] at confirmed plain
  rw [createEntry_seat seat]
  by_cases confirms : (newEntry x y s).Confirms (entered m x y (victimAt m s) (evicting m s))
  · exact ⟨m, _, confirmed confirms, rfl, rfl, Nat.le_max_left 1 _, rfl, rfl⟩
  · exact ⟨m, _, plain confirms, rfl, rfl, Nat.le_refl 1, rfl, rfl⟩

theorem chooseVictim_congr {x y : Port} {s t : State} (port : ∀ p, t.port p = s.port p) (order : t.order = s.order) :
    chooseVictim x y t = chooseVictim x y s := by
  unfold chooseVictim
  rw [port, port, order]

theorem Seat.congr {s t : State} {m : Fin 16} (h : Seat s m) (evidence : t.evidence = s.evidence)
    (clock : t.clock = s.clock) : Seat t m := by
  unfold Seat evictChoice at *
  rw [evidence, clock]
  exact h

/-- Settles O18: where the pair stands its count rises, and where it does not its entry is made, with the guard events
of R60 in their order and the check for confirmation at the end. -/
theorem creditedCatchBecomesEvidence : Obligations.CreditedCatchBecomesEvidence := by
  refine ⟨fun s yp i e loaded opt sound present up entry new one => ?_,
    fun s yp i e m loaded link opt sound present up entry new one pairless seat => ?_⟩
  · obtain ⟨c, ⟨frame, woken, slot, -⟩, run⟩ := exec_catch_credited loaded opt present up entry new one
    obtain ⟨rest, awake, -⟩ := woken_control .caught yp s
    have evidence : c.evidence = s.evidence := frame .evidence (by decide)
    have victim : chooseVictim e.egress yp c = chooseVictim e.egress yp s :=
      chooseVictim_congr (port_congr (frame .ports (by decide))) (frame .order (by decide))
    have seen := frame_sighting e.egress yp c
    have probe : (sighting e.egress yp c).probe = c.probe := seen .probe (by decide)
    have control : (sighting e.egress yp c).control = (s.woken .caught yp).control :=
      (seen .control (by decide)).trans woken
    refine ⟨_, run, ?_, fun z => mem_insertPort yp z _, fun j other => ?_, fun is => ?_, fun is => ?_, fun stands => ?_,
      fun none => ?_⟩
    · rw [probe, slot, if_pos rfl]
    · rw [probe, slot, if_neg other]
    · rw [control]; exact rest is
    · rw [control]; exact awake is
    · cases found : findLet e.egress yp c with
      | none =>
        obtain ⟨j, l, h, pair⟩ := stands
        exact absurd pair (findLet_none.mp found j l (by rw [evidence]; exact h))
      | some j =>
        obtain ⟨l, h, egress, ingress⟩ := findLet_some found
        obtain ⟨l', h', egress', ingress', victim', seen', count⟩ := creditSlot_slot h
        rw [sighting_stands (sound.congr evidence) found]
        rw [evidence] at h
        exact ⟨j, l, l', h, egress, ingress, h', egress'.trans egress, ingress'.trans ingress, count, victim', seen'⟩
    · have lost : findLet e.egress yp c = .none :=
        findLet_none.mpr fun j l h pair => none ⟨j, l, by rw [← evidence]; exact h, pair⟩
      obtain ⟨j, l, h, egress, ingress, count, first, is⟩ := createEntry_slot e.egress yp c
      rw [sighting_new (sound.congr evidence) lost]
      exact ⟨j, l, h, egress, ingress, count,
        first.trans (congrArg IntervalClock.stamp (frame .clock (by decide))), is.trans victim⟩
  · intro v confirms count
    obtain ⟨c, credits, run⟩ := exec_catch_credited loaded opt present up entry new one
    have like := credits.like link
    have evidence : c.evidence = s.evidence := credits.frame .evidence (by decide)
    have lost : findLet e.egress yp c = none := findLet_none.mpr fun j l h => pairless j l (by rw [← evidence]; exact h)
    have seat' : Seat c m := Seat.congr seat evidence (credits.frame .clock (by decide))
    rw [sighting_new (sound.congr evidence) lost, createEntry_seat seat'] at run
    have evict := frame_evicting m c
    have slots : (evicting m c).evidence.slots = s.evidence.slots := by rw [evicting_slots, evidence]
    have evictions : (evicting m c).evidence.evictions =
        if (s.evidence.slots.get m).isSome then min 65535 (s.evidence.evictions + 1) else s.evidence.evictions := by
      rw [evicting, evidence]
      split
      · rw [← evidence]; rfl
      · rw [evidence]
    have victim (z : Port) : victimAt m c = some z ↔ ∃ l, s.evidence.slots.get m = some l ∧ l.victim = some z := by
      rw [victimAt, evidence, Option.bind_eq_some_iff]
    have frame : OnlyChanges [.control, .reports, .probe, .evidence, .glink] s (evicting m c) :=
      (((frame_woken _ _ s).mono (by decide)).comp like (by decide)).comp evict (by decide)
    have control : (evicting m c).control = (s.woken .caught yp).control :=
      (evict .control (by decide)).trans credits.control
    have policy : (evicting m c).control.policy = s.control.policy := by
      rw [control, (woken_control .caught yp s).2.2]
    have port (p : Port) : (evicting m c).port p = s.port p := port_congr (frame .ports (by decide)) p
    have made : newEntry e.egress yp (evicting m c) = ⟨e.egress, yp, 1, s.clock.stamp, v, false, true⟩ :=
      newEntry_congr port (frame .order (by decide)) (congrArg IntervalClock.stamp (frame .clock (by decide)))
    have check := entered_confirms m e.egress yp (victimAt m c) (evicting m c)
    rw [policy, port, port] at check
    have created := frame_createIn m e.egress yp (victimAt m c) (evicting m c)
    obtain ⟨confirmed, plain, others⟩ :=
      createIn_slots (m := m) (x := e.egress) (y := yp) (v := victimAt m c) (s := evicting m c)
    refine ⟨_, run, (frame.mono (by decide)).comp created (by decide), ?_, fun not => ?_, fun is => ?_,
      fun k other => ?_, ?_, fun gone ascending mem => ?_⟩
    · exact (created .control (by decide)).trans control
    · rw [plain (check.not.mpr not), made]
    · rw [confirmed (check.mpr is), made, policy]
      rfl
    · rw [others k other, slots]
    · rw [(createIn_owed ..).2, evictions]
    · have events := createIn_events (m := m) (x := e.egress) (y := yp) (v := victimAt m c)
        (like.comp evict (by decide)) ascending fun z => (mem z).trans (by rw [victim])
      rw [made, policy] at events
      rw [made] at check
      obtain ⟨u, a, left, given, gone, evident, unconfirmed, first⟩ := events
      exact ⟨u, a, left, given, gone, evident, fun not => unconfirmed (check.not.mpr not),
        fun is => first (check.mpr is)⟩

end Sys2Proof.Machine
end

section
/-! SUPPORT. The trap (R54, R55, R73): a failure at the Table Check, the scans that find one, and the victim sweep after
a failing LET entry. -/

namespace Sys2Proof.Machine

/-! ### A failure at the Table Check -/

theorem trapFailure_first {tb : TableName} {slot : Nat} {s : State} (free : s.trap = none) :
    trapFailure tb slot s =
      { s with
        trap := some ⟨tb, slot, s.clock.stamp, false⟩
        reports := (report (.trap tb slot s.clock.stamp) s).reports } := by
  unfold trapFailure
  simp only [free]
  exact (report_eq _ _).trans
    (congrArg (fun u => ({ s with trap := some ⟨tb, slot, s.clock.stamp, false⟩, reports := u } : State))
      (report_reports_congr _ rfl rfl))

theorem trapFailure_later {tb : TableName} {slot : Nat} {s : State} {r : TrapRecord} (held : s.trap = some r) :
    trapFailure tb slot s = { s with trap := some { r with overflow := true } } := by
  unfold trapFailure
  simp only [held]

/-- What a failure tells depends on the trap, the Report Unit and the stamp alone. -/
theorem trapFailure_congr (tb : TableName) (slot : Nat) {s t : State} (trap : t.trap = s.trap)
    (reports : t.reports = s.reports) (stamp : t.clock.stamp = s.clock.stamp) :
    (trapFailure tb slot t).trap = (trapFailure tb slot s).trap ∧
      (trapFailure tb slot t).reports = (trapFailure tb slot s).reports := by
  cases held : s.trap with
  | none =>
    rw [trapFailure_first held, trapFailure_first (trap.trans held), stamp]
    exact ⟨rfl, report_reports_congr _ reports stamp⟩
  | some r =>
    rw [trapFailure_later held, trapFailure_later (trap.trans held)]
    exact ⟨rfl, reports⟩

/-! ### A scan of the OPT -/

/-- The slots whose entries a scan of the OPT finds failing, in the order in which it tells them. -/
def failingOpt (s : State) : List (Fin 32) := (List.finRange 32).filter fun i => optFails (s.probe.opt.get i)

theorem readOpt_eq (s : State) : readOpt s = (failingOpt s).foldl (fun t i => dropOpt i t) s := rfl

theorem optFails_iff (s : State) (i : Fin 32) :
    optFails (s.probe.opt.get i) = true ↔ ∃ e, s.probe.opt.get i = some e ∧ e.parityOk = false := by
  cases s.probe.opt.get i with
  | none => simp [optFails]
  | some e => simp [optFails]

theorem mem_failingOpt {s : State} {i : Fin 32} :
    i ∈ failingOpt s ↔ ∃ e, s.probe.opt.get i = some e ∧ e.parityOk = false := by
  rw [failingOpt, List.mem_filter, optFails_iff]
  exact and_iff_right (List.mem_finRange i)

theorem failingOpt_ascending (s : State) : (failingOpt s).Pairwise (· < ·) := (List.pairwise_lt_finRange 32).filter _

/-- A scan that finds none failing is no more than that. -/
theorem failingOpt_none {s : State} (none : ∀ i, ¬ ∃ e, s.probe.opt.get i = some e ∧ e.parityOk = false) :
    failingOpt s = [] := List.eq_nil_iff_forall_not_mem.mpr fun i mem => none i (mem_failingOpt.mp mem)

theorem readOpt_slot (s : State) (i : Fin 32) :
    (readOpt s).probe.opt.get i = if i ∈ failingOpt s then none else s.probe.opt.get i := by
  rw [readOpt_eq, foldl_dropOpt_get]

/-- A dropped entry is told as a failure of the state it was found in. -/
theorem dropOpt_told (i : Fin 32) (s : State) :
    (dropOpt i s).trap = (trapFailure .opt i.val s).trap ∧
      (dropOpt i s).reports = (trapFailure .opt i.val s).reports := trapFailure_congr _ _ rfl rfl rfl

theorem dropOpt_later {i : Fin 32} {s : State} {r : TrapRecord} (held : s.trap = some r) :
    (dropOpt i s).trap = some { r with overflow := true } ∧ (dropOpt i s).reports = s.reports := by
  rw [(dropOpt_told i s).1, (dropOpt_told i s).2, trapFailure_later held]
  exact ⟨rfl, rfl⟩

/-- Failures told to a trap that holds one leave its record but for the overflow mark. -/
theorem foldl_dropOpt_later (l : List (Fin 32)) {s : State} {r : TrapRecord} (held : s.trap = some r) :
    (l.foldl (fun t i => dropOpt i t) s).trap = some { r with overflow := r.overflow || decide (l ≠ []) } ∧
      (l.foldl (fun t i => dropOpt i t) s).reports = s.reports := by
  induction l generalizing s r with
  | nil => simp [held]
  | cons i l ih =>
    obtain ⟨trap, reports⟩ := dropOpt_later (i := i) held
    obtain ⟨trap', reports'⟩ := ih trap
    refine ⟨trap'.trans ?_, reports'.trans reports⟩
    simp

theorem dropOpt_first {i : Fin 32} {s : State} (free : s.trap = none) :
    (dropOpt i s).trap = some ⟨.opt, i.val, s.clock.stamp, false⟩ ∧
      (dropOpt i s).reports = (report (.trap .opt i.val s.clock.stamp) s).reports := by
  rw [(dropOpt_told i s).1, (dropOpt_told i s).2, trapFailure_first free]
  exact ⟨rfl, rfl⟩

/-- The first of several failures is the one that an empty trap captures and tells. -/
theorem foldl_dropOpt_first (i : Fin 32) (l : List (Fin 32)) {s : State} (free : s.trap = none) :
    ((i :: l).foldl (fun t i => dropOpt i t) s).trap =
        some ⟨.opt, i.val, s.clock.stamp, decide (l ≠ [])⟩ ∧
      ((i :: l).foldl (fun t i => dropOpt i t) s).reports =
        (report (.trap .opt i.val s.clock.stamp) s).reports := by
  obtain ⟨trap, reports⟩ := dropOpt_first (i := i) free
  obtain ⟨trap', reports'⟩ := foldl_dropOpt_later l trap
  refine ⟨trap'.trans ?_, reports'.trans reports⟩
  rw [Bool.false_or]

/-- The lowest failing slot is the first one told. -/
theorem failingOpt_lowest {s : State} {i : Fin 32} (fails : ∃ e, s.probe.opt.get i = some e ∧ e.parityOk = false)
    (below : ∀ j, j < i → ¬ ∃ e, s.probe.opt.get j = some e ∧ e.parityOk = false) :
    ∃ l, failingOpt s = i :: l ∧
      (l ≠ [] ↔ ∃ j, i < j ∧ ∃ e, s.probe.opt.get j = some e ∧ e.parityOk = false) := by
  have ascending := failingOpt_ascending s
  have mem (j : Fin 32) := mem_failingOpt (s := s) (i := j)
  cases list : failingOpt s with
  | nil => rw [list] at mem; exact absurd ((mem i).mpr fails) List.not_mem_nil
  | cons k l =>
    rw [list] at ascending mem
    obtain ⟨first, -⟩ := List.pairwise_cons.mp ascending
    have lowest : k = i := by
      rcases List.mem_cons.mp ((mem i).mpr fails) with same | later
      · exact same.symm
      · exact absurd ((mem k).mp List.mem_cons_self) (below k (first i later))
    subst lowest
    refine ⟨l, rfl, fun some => ?_, fun ⟨j, above, bad⟩ empty => ?_⟩
    · obtain ⟨j, later⟩ := List.exists_mem_of_ne_nil l some
      exact ⟨j, first j later, (mem j).mp (List.mem_cons_of_mem _ later)⟩
    · rcases List.mem_cons.mp ((mem j).mpr bad) with same | later
      · exact absurd same (ne_of_gt above)
      · rw [empty] at later
        cases later

/-- A scan that finds one entry failing empties its slot and tells it. -/
theorem readOpt_one {s : State} {i : Fin 32} {e : OptEntry} (entry : s.probe.opt.get i = some e)
    (bad : e.parityOk = false) (others : ∀ j f, j ≠ i → s.probe.opt.get j = some f → f.parityOk = true) :
    readOpt s = dropOpt i s := by
  have one : failingOpt s = [i] := by
    refine (failingOpt_ascending s).eq_of_mem_iff (List.pairwise_singleton _ _) fun j => ?_
    rw [mem_failingOpt, List.mem_singleton]
    refine ⟨fun ⟨f, h, fails⟩ => by_contra fun other => ?_, fun same => ⟨e, same ▸ entry, bad⟩⟩
    rw [others j f other h] at fails
    cases fails
  rw [readOpt_eq, one]
  rfl

/-! ### A failing LET entry, and the sweep that it owes -/

theorem readLet_passing {s : State} (passing : ∀ i e, s.evidence.slots.get i = some e → e.parityOk = true) :
    readLet s = s := by
  unfold readLet
  have none : ((List.finRange 16).filter fun i => letFails (s.evidence.slots.get i)) = [] := by
    refine List.filter_eq_nil_iff.mpr fun i _ => ?_
    cases entry : s.evidence.slots.get i with
    | none => exact Bool.false_ne_true
    | some e => simp [letFails, passing i e entry]
  rw [none]
  rfl

theorem readLet_one {s : State} {i : Fin 16} {e : LetEntry} (entry : s.evidence.slots.get i = some e)
    (bad : e.parityOk = false) (others : ∀ j f, j ≠ i → s.evidence.slots.get j = some f → f.parityOk = true) :
    readLet s = dropLet i s := by
  unfold readLet
  have one : ((List.finRange 16).filter fun j => letFails (s.evidence.slots.get j)) = [i] := by
    refine ((List.pairwise_lt_finRange 16).filter _).eq_of_mem_iff (List.pairwise_singleton _ _) fun j => ?_
    rw [List.mem_filter, List.mem_singleton]
    refine ⟨fun ⟨_, fails⟩ => by_contra fun other => ?_, fun same => ⟨List.mem_finRange j, ?_⟩⟩
    · cases h : s.evidence.slots.get j with
      | none => rw [h] at fails; cases fails
      | some f =>
        rw [h, letFails, others j f other h] at fails
        cases fails
    · rw [same, entry, letFails, bad]
      rfl
  rw [one]
  rfl

/-- The sweep, with no other entry failing: evidence-gone for every port that no entry names (R73). -/
theorem settleSweep_owed {s : State} (owed : s.evidence.sweepOwed = true)
    (passing : ∀ i e, s.evidence.slots.get i = some e → e.parityOk = true) :
    (settleSweep s).evidence = { s.evidence with sweepOwed := false } ∧ (settleSweep s).trap = s.trap ∧
      ∀ q, (Named s q → (settleSweep s).port q = s.port q) ∧
        (¬ Named s q → (settleSweep s).port q = (s.port q).gone) := by
  let u : State := { s with evidence := { s.evidence with sweepOwed := false } }
  let gone : List Port := allPorts.filter fun p =>
    (decide ((u.port p).guard = .suspect) || decide ((u.port p).guard = .blocked)) && !u.named p
  have swept : settleSweep s = allGone gone u := by
    unfold settleSweep
    rw [if_pos owed, readLet_passing passing]
    rfl
  have frame := frame_allGone gone u
  have mem (q : Port) : q ∈ gone ↔ ((s.port q).guard = .suspect ∨ (s.port q).guard = .blocked) ∧ ¬ Named s q := by
    rw [List.mem_filter, and_iff_right (mem_allPorts q), Bool.and_eq_true, Bool.not_eq_true', named_false,
      Bool.or_eq_true, decide_eq_true_iff, decide_eq_true_iff]
    rfl
  have port (q : Port) : u.port q = s.port q := port_congr rfl q
  rw [swept]
  refine ⟨frame .evidence (by decide), frame .trap (by decide), fun q => ⟨fun named => ?_, fun unnamed => ?_⟩⟩
  · rw [allGone_port, if_neg fun h => ((mem q).mp h).2 named, port]
  · rw [allGone_port, port]
    by_cases listed : q ∈ gone
    · rw [if_pos listed]
    · rw [if_neg listed, gone_kept]
      rintro (g | ⟨g, -⟩)
      · exact listed ((mem q).mpr ⟨Or.inl g, unnamed⟩)
      · exact listed ((mem q).mpr ⟨Or.inr g, unnamed⟩)

end Sys2Proof.Machine
end

section
/-! SUPPORT. The steps in which the trap shows (R54, R55, R73): the scan of an interval event, a catch lookup, and the
end of a hold. -/

namespace Sys2Proof.Machine

/-! ### The scan of an interval event -/

theorem frame_strobed (s : State) : OnlyChanges [.ports, .clock, .meter, .arbiter, .glink] s (strobed s) :=
  ((((frame_clockTick s).mono (by decide)).comp (frame_meterInterval _) (by decide)).comp (frame_handTx _ _)
    (by decide)).comp (frame_paceTick _) (by decide)

/-- What an interval event leaves of the OPT, the trap and the reports is what its scan leaves of them. -/
theorem frame_afterScan (s : State) : OnlyChanges [.ports, .control] (readOpt (strobed s)) (intervalTick s) := by
  rw [intervalTick_eq]
  exact ((frame_mapPorts _ _).mono (by decide)).comp (frame_hostTick _) (by decide)

/-- The slots that fail at an interval event are those that fail before it. -/
theorem failingOpt_strobed (s : State) : failingOpt (strobed s) = failingOpt s := by
  unfold failingOpt
  rw [frame_strobed s .probe (by decide)]

theorem strobed_stamp (s : State) : (strobed s).clock.stamp = s.clock.stamp + 1 := by
  rw [strobed_clock, clockTick_stamp]

/-! ### A catch lookup -/

/-- A count of the Probe Unit commutes with the telling of a failure. -/
theorem lateCatch_trapFailure (tb : TableName) (slot : Nat) (s : State) :
    lateCatch (trapFailure tb slot s) = trapFailure tb slot (lateCatch s) := by
  cases held : s.trap with
  | none =>
    rw [trapFailure_first held, trapFailure_first (s := lateCatch s) held]
    have told : (report (.trap tb slot s.clock.stamp) (lateCatch s)).reports =
        (report (.trap tb slot s.clock.stamp) s).reports := report_reports_congr _ rfl rfl
    rw [show (lateCatch s).clock.stamp = s.clock.stamp from rfl, told]
    rfl
  | some r =>
    rw [trapFailure_later held, trapFailure_later (s := lateCatch s) held]
    rfl

/-- A failure is told alike before the receiver has gone back to HUNT and after. -/
theorem trapFailure_received (tb : TableName) (slot : Nat) (s : State) :
    trapFailure tb slot s.received = (trapFailure tb slot s).received := by
  cases held : s.trap with
  | none =>
    rw [trapFailure_first held, trapFailure_first (s := s.received) held]
    have told : (report (.trap tb slot s.clock.stamp) s.received).reports =
        (report (.trap tb slot s.clock.stamp) s).reports := report_reports_congr _ rfl rfl
    rw [show s.received.clock.stamp = s.clock.stamp from rfl, told]
    rfl
  | some r =>
    rw [trapFailure_later held, trapFailure_later (s := s.received) held]
    rfl

/-! ### The end of a hold -/

theorem lowerPortsEnd_same {p : Port} {s : State}
    (undue : ∀ q, q < p →
      (s.port q).throttleDue = false ∧ (s.port q).holdDue = false ∧ (s.port q).decayDue = false) :
    lowerPortsEnd p s = s := by
  have ended (l : List Port) (below : ∀ q ∈ l, q < p) : l.foldl (fun t q => portEnds q t) s = s := by
    induction l with
    | nil => rfl
    | cons q l ih =>
      obtain ⟨first, rest⟩ := List.forall_mem_cons.mp below
      rw [List.foldl_cons, portEnds_same (undue q first)]
      exact ih rest
  exact ended _ fun q mem => of_decide_eq_true (List.mem_filter.mp mem).2

/-- The state in which the end of a hold has been marked as judged. -/
def holdJudged (p : Port) (s : State) : State := s.modPort p fun r => { r with holdDue := false }

theorem holdJudged_port (p q : Port) (s : State) :
    (holdJudged p s).port q = { s.port q with holdDue := if q = p then false else (s.port q).holdDue } := by
  rw [holdJudged, port_modPort]
  split
  · next same => rw [same]
  · rfl

theorem exec_holdExpiry {p : Port} {s : State} (due : (s.port p).holdDue = true) (blocked : (s.port p).guard = .blocked)
    (ended : (s.port p).hold = 0)
    (undue : ∀ q, q < p →
      (s.port q).throttleDue = false ∧ (s.port q).holdDue = false ∧ (s.port q).decayDue = false) :
    exec (.holdExpiry p) s =
      .next (settleSweep
        (if (readLet (holdJudged p s)).named p then readLet (holdJudged p s)
        else goPlain p .listen .release (readLet (holdJudged p s)))) := by
  show execHoldExpiry p s = _
  rw [execHoldExpiry, if_pos due, lowerPortsEnd_same undue, holdEnds]
  exact congrArg _ (if_pos ⟨due, blocked, ended⟩)

theorem dropLet_evidence (i : Fin 16) (s : State) :
    (dropLet i s).evidence =
      { s.evidence with slots := s.evidence.slots.set i.val none i.isLt, sweepOwed := true } :=
  trapFailure_evidence ..

theorem dropLet_told (i : Fin 16) {s t : State} (trap : t.trap = s.trap) (reports : t.reports = s.reports)
    (stamp : t.clock.stamp = s.clock.stamp) :
    (dropLet i t).trap = (trapFailure .letTable i.val s).trap ∧
      (dropLet i t).reports = (trapFailure .letTable i.val s).reports := trapFailure_congr _ _ trap reports stamp

/-- The end of a hold whose read of the LET finds one entry failing: the entry is dropped and told, the port is released
unless another entry names it, and the sweep gives evidence-gone to every port that none names. -/
theorem holdExpiry_failing {p : Port} {i : Fin 16} {e : LetEntry} {s : State} (clear : s.evidence.sweepOwed = false)
    (entry : s.evidence.slots.get i = some e) (bad : e.parityOk = false)
    (others : ∀ j f, j ≠ i → s.evidence.slots.get j = some f → f.parityOk = true)
    (due : (s.port p).holdDue = true) (blocked : (s.port p).guard = .blocked) (ended : (s.port p).hold = 0)
    (undue : ∀ q, q < p →
      (s.port q).throttleDue = false ∧ (s.port q).holdDue = false ∧ (s.port q).decayDue = false) :
    ∃ t, exec (.holdExpiry p) s = .next t ∧
      t.evidence = { s.evidence with slots := s.evidence.slots.set i.val none i.isLt } ∧
      t.trap = (trapFailure .letTable i.val s).trap ∧
      (trapFailure .letTable i.val s).reports.queue <+: t.reports.queue ∧
      ∀ q,
        ((∃ j f, j ≠ i ∧ s.evidence.slots.get j = some f ∧ f.victim = some q) →
          t.port q = { s.port q with holdDue := if q = p then false else (s.port q).holdDue }) ∧
        ((¬ ∃ j f, j ≠ i ∧ s.evidence.slots.get j = some f ∧ f.victim = some q) →
          t.port q = if q = p then ({ s.port p with holdDue := false } : PortRec).enter .listen 0 0
            else (s.port q).gone) := by
  have read : readLet (holdJudged p s) = dropLet i (holdJudged p s) :=
    readLet_one (s := holdJudged p s) entry bad others
  have run := exec_holdExpiry due blocked ended undue
  obtain ⟨trap, reports⟩ := dropLet_told i (s := s) (t := holdJudged p s) rfl rfl rfl
  have evidence : (dropLet i (holdJudged p s)).evidence =
      { s.evidence with slots := s.evidence.slots.set i.val none i.isLt, sweepOwed := true } := dropLet_evidence ..
  have port (q : Port) : (dropLet i (holdJudged p s)).port q =
      { s.port q with holdDue := if q = p then false else (s.port q).holdDue } := by
    rw [← holdJudged_port]
    exact port_congr (frame_dropLet _ _ .ports (by decide)) q
  rw [read] at run
  generalize dropLet i (holdJudged p s) = u at run trap reports evidence port
  have left (j : Fin 16) (f : LetEntry) :
      u.evidence.slots.get j = some f ↔ j ≠ i ∧ s.evidence.slots.get j = some f := by
    rw [evidence]
    show (s.evidence.slots.set i.val none i.isLt).get j = some f ↔ _
    rw [get_set]
    by_cases same : j = i <;> simp [same]
  have named (q : Port) : Named u q ↔ ∃ j f, j ≠ i ∧ s.evidence.slots.get j = some f ∧ f.victim = some q := by
    simp only [Named, left, and_assoc]
  have judged : ∃ v, (if u.named p then u else goPlain p .listen .release u) = v ∧
      OnlyChanges [.ports, .reports] u v ∧ Appends u v ∧
      ∀ q, v.port q = if q = p ∧ u.named p = false then (u.port p).enter .listen 0 0 else u.port q := by
    cases u.named p with
    | true => exact ⟨u, if_pos rfl, OnlyChanges.refl _ u, Appends.refl u, fun q => (if_neg (by simp)).symm⟩
    | false =>
      refine ⟨_, if_neg Bool.false_ne_true, frame_goPlain _ _ _ u, appends_goPlain _ _ _ u, fun q => ?_⟩
      rw [goPlain_port]
      simp only [and_true]
  obtain ⟨v, is, frame, appends, ports⟩ := judged
  rw [is] at run
  have same : v.evidence = u.evidence := frame .evidence (by decide)
  have passing (j : Fin 16) (f : LetEntry) (h : v.evidence.slots.get j = some f) : f.parityOk = true := by
    rw [same, left] at h
    exact others j f h.1 h.2
  obtain ⟨swept, kept, freed⟩ := settleSweep_owed (s := v) (by rw [same, evidence]) passing
  have victims (q : Port) : Named v q ↔ Named u q := by simp only [Named, same]
  refine ⟨_, run, ?_, ?_, ?_, fun q => ⟨fun is => ?_, fun not => ?_⟩⟩
  · rw [swept, same, evidence, ← clear]
  · rw [kept, frame .trap (by decide), trap]
  · rw [← reports]
    exact (appends.comp (appends_settleSweep v)).1
  · have named' := (named q).mpr is
    rw [(freed q).1 ((victims q).mpr named'), ports, if_neg, port]
    rintro ⟨rfl, unnamed⟩
    exact (named_false u q).mp unnamed named'
  · have unnamed := (named q).not.mpr not
    rw [(freed q).2 ((victims q).not.mpr unnamed), ports]
    by_cases self : q = p
    · subst self
      rw [if_pos ⟨rfl, (named_false u q).mpr unnamed⟩, if_pos rfl, port, if_pos rfl]
      exact gone_kept (listening_not_freed (enter_spec ..).1)
    · rw [if_neg fun h => self h.1, if_neg self, port, if_neg self]

/-! ### The statement -/

/-- Settles O42: the trap takes the first failure and marks any later one, at an interval event, at a catch lookup and
at the end of a hold; TRAPCLR and RESET are requests like any other. -/
theorem trapTrapclrAndReset : Obligations.TrapTrapclrAndReset := by
  refine ⟨fun s tb slot => ⟨trapFailure_first, fun r held => trapFailure_later held⟩,
    fun s running still => ?_, fun s yp i e loaded link present up entry bad others none => ?_,
    fun s p i e clear entry bad others due blocked ended undue => ?_, fun s t carried served => ?_,
    fun s t carried served => ?_⟩
  · intro fails ticked
    have run : exec .intervalEvent s = .next (intervalTick s) := by
      rw [exec_interval running, settleInterval_same still]
    have strobe := frame_strobed s
    have scan := frame_readOpt (strobed s)
    have after := frame_afterScan s
    have slot (i : Fin 32) : (intervalTick s).probe.opt.get i =
        if i ∈ failingOpt s then .none else s.probe.opt.get i := by
      rw [after .probe (by decide), readOpt_slot, failingOpt_strobed, strobe .probe (by decide)]
    have free : (strobed s).trap = s.trap := strobe .trap (by decide)
    have reports : (strobed s).reports = s.reports := strobe .reports (by decide)
    have trap' : (intervalTick s).trap = (readOpt (strobed s)).trap := after .trap (by decide)
    have reports' : (intervalTick s).reports = (readOpt (strobed s)).reports := after .reports (by decide)
    rw [readOpt_eq, failingOpt_strobed] at trap' reports'
    refine ⟨_, run, fun i bad => ?_, fun i good => ?_, ?_, fun none => ?_, fun i r bad held => ?_,
      fun i bad below empty => ?_⟩
    · rw [slot, if_pos (mem_failingOpt.mpr bad)]
    · rw [slot, if_neg (mem_failingOpt.not.mpr good)]
    · rw [after .evidence (by decide), scan .evidence (by decide), strobe .evidence (by decide)]
    · rw [trap', reports', failingOpt_none none]
      exact ⟨free, reports⟩
    · have some : failingOpt s ≠ [] := List.ne_nil_of_mem (mem_failingOpt.mpr bad)
      obtain ⟨trap, told⟩ := foldl_dropOpt_later (failingOpt s) (free.trans held)
      rw [trap', reports', trap, told, reports, decide_eq_true some, Bool.or_true]
      exact ⟨rfl, rfl⟩
    · obtain ⟨l, list, more⟩ := failingOpt_lowest bad below
      obtain ⟨trap, told⟩ := foldl_dropOpt_first i l (free.trans empty)
      rw [trap', reports', list, trap, told, strobed_stamp]
      refine ⟨report_reports_congr _ reports (strobed_stamp s), fun only => ?_, fun also => ?_⟩
      · rw [decide_eq_false fun some => ?_]
        obtain ⟨j, above, fails⟩ := more.mp some
        exact only j above fails
      · rw [decide_eq_true (more.mpr also)]
  · have read : readOpt s.received = dropOpt i s.received := readOpt_one (s := s.received) entry bad others
    have late : catchOn e.egress yp e.round s.received = lateCatch (readOpt s.received) := by
      refine catchOn_late (s := s.received) present up fun j f h => ?_
      obtain ⟨h, ok⟩ := (readOpt_get s.received j f).mp h
      refine none j f (fun same => ?_) h
      obtain rfl := Option.some.inj (entry.symm.trans (same ▸ h))
      rw [bad] at ok
      cases ok
    rw [exec_catch_up _ _ _ _ loaded link]
    refine congrArg _ ((catchAtProbe_ports yp e.egress e.round s.received).trans (late.trans ?_))
    rw [read, dropOpt, lateCatch_trapFailure, ← trapFailure_received]
    rfl
  · intro named
    obtain ⟨t, run, evidence, trap, queue, ports⟩ := holdExpiry_failing clear entry bad others due blocked ended undue
    obtain ⟨t', run', frame⟩ := exec_frame (.holdExpiry p) s
    cases run.symm.trans run'
    refine ⟨_, run, frame, evidence, trap, queue, fun q => ⟨(ports q).1, fun not => ?_⟩⟩
    have port := (ports q).2 not
    by_cases self : q = p
    · subst self
      rw [if_pos rfl] at port
      rw [port]
      refine ⟨fun g => ?_, fun _ _ => (enter_spec ..).1, fun kept => absurd (Or.inr ⟨blocked, ended⟩) kept⟩
      rw [blocked] at g
      cases g
    · rw [if_neg self] at port
      rw [port]
      refine ⟨fun g => ?_, fun g h => ?_, gone_kept⟩
      · rw [gone_suspect g]; exact (enter_spec ..).1
      · rw [gone_blocked g h]; exact (enter_spec ..).1
  · exact congrArg Host.Outcome.next (request_served (k := .trapclr) carried served)
  · exact congrArg Host.Outcome.next (request_served (k := .reset) carried served)

end Sys2Proof.Machine
end

section
/-! SUPPORT. Only an ACCESS port is ever BLOCKED (R62, R78, R90): what an event of the Port Guard or the Evidence Unit
may make of the guard records and of the LET, so that guard states go on to fit their ports and victims go on to be
ACCESS ports of their own entries. -/

namespace Sys2Proof.Machine

/-! ### Records and entries -/

/-- A record stands, and if its port is BLOCKED after, it was so before or its role is ACCESS. -/
structure PortRec.Spared (r u : PortRec) : Prop extends r.Stands u where
  blocked : u.guard = .blocked → r.guard = .blocked ∨ r.role = .access

theorem PortRec.Spared.of_same {r u : PortRec} (role : u.role = r.role) (present : u.present = r.present)
    (linkUp : u.linkUp = r.linkUp) (guard : u.guard = r.guard) : r.Spared u :=
  ⟨⟨role, present, linkUp, Or.inl guard⟩, fun b => Or.inl (guard.symm.trans b)⟩

theorem PortRec.Spared.refl (r : PortRec) : r.Spared r := .of_same rfl rfl rfl rfl

theorem PortRec.Spared.trans {a b c : PortRec} (h : a.Spared b) (k : b.Spared c) : a.Spared c where
  toStands := h.toStands.trans k.toStands
  blocked g := by
    rcases k.blocked g with was | access
    · exact h.blocked was
    · exact Or.inr (h.role.symm.trans access)

/-- A port is BLOCKED once it has entered BLOCKED, and no other state. -/
theorem enter_blocked {r : PortRec} {g : GuardState} {n k : Nat} (h : (r.enter g n k).guard = .blocked) :
    g = .blocked := (enter_spec r g n k).1.symm.trans h

theorem enter_spared {r : PortRec} {g : GuardState} (n k : Nat) (linked : r.guard.linked = true)
    (into : g.linked = true) (free : g ≠ .blocked) : r.Spared (r.enter g n k) :=
  ⟨enter_stands n k linked into, fun b => absurd (enter_blocked b) free⟩

theorem overridden_spared (o : Override) (r : PortRec) : r.Spared ({ r with override := o } : PortRec).deriveWanted :=
  have kept := deriveWanted_kept { r with override := o }
  .of_same kept.role kept.present kept.linkUp (deriveWanted_guard _)

/-- Evidence-gone blocks no port. -/
theorem gone_unblocks {r : PortRec} (h : r.gone.guard = .blocked) : r.guard = .blocked := by
  unfold PortRec.gone at h
  split at h
  · exact absurd (enter_blocked h) (by decide)
  · split at h
    · exact absurd (enter_blocked h) (by decide)
    · exact h

theorem gone_spared (r : PortRec) : r.Spared r.gone := ⟨gone_stands r, fun b => Or.inl (gone_unblocks b)⟩

theorem GoneAtMost.spared {s t : State} (h : GoneAtMost s t) (p : Port) : (s.port p).Spared (t.port p) := by
  rcases h p with same | gone
  · rw [same]; exact .refl _
  · rw [gone]; exact gone_spared _

theorem GoneAtMost.unblocks {s t : State} (h : GoneAtMost s t) {p : Port} (blocked : (t.port p).guard = .blocked) :
    (s.port p).guard = .blocked := by
  rcases h p with same | gone
  · exact same ▸ blocked
  · exact gone_unblocks (gone ▸ blocked)

theorem tickRec_spared (n : Nat) (r : PortRec) : r.Spared (tickRec n r) := by
  have guard : (tickRec n r).guard = r.guard := by
    unfold tickRec
    split
    · split <;> rfl
    · split <;> rfl
    all_goals rfl
  obtain ⟨role, present, linkUp, -⟩ := tickRec_table n r
  exact .of_same role present linkUp guard

/-- An entry names the pair and the victim that another names. -/
structure LetEntry.Alike (f e : LetEntry) : Prop where
  egress : e.egress = f.egress
  ingress : e.ingress = f.ingress
  victim : e.victim = f.victim

theorem LetEntry.Alike.refl (e : LetEntry) : e.Alike e := ⟨rfl, rfl, rfl⟩

/-! ### What keeps the guard states in their places -/

/-- Records that are spared, and entries like those that stood before. -/
theorem GuardFits.of_spared {s t : State} (h : GuardFits s) (spared : ∀ p, (s.port p).Spared (t.port p))
    (slots : ∀ i e, t.evidence.slots.get i = some e → ∃ f, s.evidence.slots.get i = some f ∧ f.Alike e)
    (loading : t.control.loading = s.control.loading) : GuardFits t where
  fits p := (spared p).toStands.fits (h.fits p)
  blocked p b := by
    rw [(spared p).role]
    exact ((spared p).blocked b).elim (h.blocked p) id
  victim i e v entry is := by
    obtain ⟨f, old, alike⟩ := slots i e entry
    obtain ⟨access, own⟩ := h.victim i f v old (alike.victim.symm.trans is)
    rw [(spared v).role, alike.egress, alike.ingress]
    exact ⟨access, own⟩
  loading l i := by
    cases entry : t.evidence.slots.get i with
    | none => rfl
    | some e =>
      obtain ⟨f, old, -⟩ := slots i e entry
      rw [h.loading (loading.symm.trans l) i] at old
      cases old

/-- An event of the ports that leaves the LET and the Mode Unit. -/
theorem GuardFits.of_ports {l : List Part} {s t : State} (h : GuardFits s)
    (spared : ∀ p, (s.port p).Spared (t.port p)) (frame : OnlyChanges l s t)
    (aside : ∀ a ∈ l, a ∉ [Part.evidence, .control]) : GuardFits t := by
  have evidence : t.evidence = s.evidence := frame .evidence fun m => aside _ m (by decide)
  have control : t.control = s.control := frame .control fun m => aside _ m (by decide)
  exact h.of_spared spared (fun i e entry => ⟨e, evidence ▸ entry, .refl e⟩) (by rw [control])

/-- An event that leaves the ports too. -/
theorem GuardFits.of_frame {l : List Part} {s t : State} (h : GuardFits s) (frame : OnlyChanges l s t)
    (aside : ∀ a ∈ l, a ∉ [Part.ports, .evidence, .control]) : GuardFits t :=
  h.of_ports (fun p => by rw [port_congr (frame .ports fun m => aside _ m (by decide))]; exact .refl _) frame
    fun a m mem => aside a m (List.mem_cons_of_mem _ mem)

/-- An event that drops or renews entries of the LET, and gives some ports evidence-gone. -/
theorem GuardFits.of_gone {l : List Part} {s t : State} (h : GuardFits s) (most : GoneAtMost s t)
    (frame : OnlyChanges l s t) (control : Part.control ∉ l)
    (slots : ∀ i e, t.evidence.slots.get i = some e → ∃ f, s.evidence.slots.get i = some f ∧ f.Alike e) :
    GuardFits t := h.of_spared most.spared slots (congrArg ModeUnit.loading (frame .control control))

/-- An event that drops entries, leaves every port its role, and blocks none; `Thinned` says the rest. -/
theorem GuardFits.of_thinned {s t : State} (h : GuardFits s) (thinned : Thinned s t)
    (role : ∀ p, (t.port p).role = (s.port p).role)
    (blocked : ∀ p, (t.port p).guard = .blocked → (s.port p).guard = .blocked)
    (slots : ∀ i e, t.evidence.slots.get i = some e → s.evidence.slots.get i = some e) : GuardFits t where
  fits := thinned.fits h.fits
  blocked p b := (role p).trans (h.blocked p (blocked p b))
  victim i e v entry is := by rw [role]; exact h.victim i e v (slots i e entry) is
  loading l i := by
    cases entry : t.evidence.slots.get i with
    | none => rfl
    | some e =>
      have old := slots i e entry
      rw [h.loading (thinned.loading.symm.trans l) i] at old
      cases old

theorem guardFits_ite {c : Prop} [Decidable c] {s t : State} (h : GuardFits s) (k : GuardFits t) :
    GuardFits (if c then t else s) := by
  split
  · exact k
  · exact h

/-- A change of the Mode Unit that neither begins nor ends a load. -/
theorem guardFits_set_control {s : State} (h : GuardFits s) (x : ModeUnit) (loading : x.loading = s.control.loading) :
    GuardFits { s with control := x } :=
  ⟨h.fits, h.blocked, h.victim, fun l => h.loading (loading ▸ l)⟩

theorem guardFits_setPort {p : Port} {r : PortRec} {s : State} (h : GuardFits s) (spared : (s.port p).Spared r) :
    GuardFits (s.setPort p r) := by
  refine h.of_ports (fun q => ?_) (frame_setPort p r s) (by decide)
  rw [port_setPort]
  split
  · next e => subst e; exact spared
  · exact .refl _

theorem guardFits_modPort {p : Port} {f : PortRec → PortRec} {s : State} (h : GuardFits s)
    (spared : (s.port p).Spared (f (s.port p))) : GuardFits (s.modPort p f) := guardFits_setPort h spared

theorem guardFits_mapPorts {f : Port → PortRec → PortRec} {s : State} (h : GuardFits s)
    (spared : ∀ p (r : PortRec), r.Spared (f p r)) : GuardFits (s.mapPorts f) :=
  h.of_ports (fun p => by rw [port_mapPorts]; exact spared p _) (frame_mapPorts f s) (by decide)

/-! ### The Port Guard -/

theorem guardFits_moveGuard {p : Port} {g : GuardState} (n k : Nat) (c : StateCause) {s : State} (h : GuardFits s)
    (linked : (s.port p).guard.linked = true) (into : g.linked = true) (free : g ≠ .blocked) :
    GuardFits (moveGuard p g n k c s) := by
  refine h.of_ports (fun q => ?_) (frame_moveGuard p g n k c s) (by decide)
  rw [moveGuard_port]
  split
  · next e => subst e; exact enter_spared n k linked into free
  · exact .refl _

theorem guardFits_evidenceGone (p : Port) {s : State} (h : GuardFits s) : GuardFits (evidenceGone p s) := by
  refine h.of_ports (fun q => ?_) (frame_evidenceGone p s) (by decide)
  rw [evidenceGone_port]
  split
  · next e => subst e; exact gone_spared _
  · exact .refl _

theorem guardFits_evidenceEvent (p : Port) {s : State} (h : GuardFits s) : GuardFits (evidenceEvent p s) := by
  unfold evidenceEvent
  split
  · exact guardFits_modPort h (.of_same rfl rfl rfl rfl)
  · next forward => exact guardFits_moveGuard 0 0 _ h (by rw [forward]; rfl) rfl (by decide)
  all_goals exact h

theorem guardFits_tripPassed (p : Port) {s : State} (h : GuardFits s) : GuardFits (tripPassed p s) := by
  unfold tripPassed
  split
  · next forward => exact guardFits_moveGuard _ 0 _ h (by rw [forward]; rfl) rfl (by decide)
  · next suspect => exact guardFits_moveGuard _ 0 _ h (by rw [suspect]; rfl) rfl (by decide)
  · exact guardFits_modPort h (.of_same rfl rfl rfl rfl)
  · exact guardFits_modPort h (.of_same rfl rfl rfl rfl)
  all_goals exact h

theorem guardFits_listenJudge {p : Port} (clean : Bool) {s : State} (h : GuardFits s)
    (linked : (s.port p).guard.linked = true) : GuardFits (listenJudge p clean s) := by
  have counted (n : Nat) : GuardFits (s.modPort p fun r => { r with listen := n }) :=
    guardFits_modPort h (.of_same rfl rfl rfl rfl)
  have linked' (n : Nat) : ((s.modPort p fun r => { r with listen := n }).port p).guard.linked = true := by
    rw [port_modPort_self]; exact linked
  unfold listenJudge
  split
  · refine guardFits_ite (counted _) ?_
    unfold leaveListen
    split
    · exact guardFits_moveGuard _ 0 _ (counted _) (linked' _) rfl (by decide)
    · exact guardFits_moveGuard 0 0 _ (counted _) (linked' _) rfl (by decide)
  · exact counted 0

/-! ### Reads of the LET, and removals from it -/

theorem guardFits_readLet {s : State} (h : GuardFits s) : GuardFits (readLet s) :=
  h.of_gone (.of_ports (frame_readLet s .ports (by decide))) (frame_readLet s) (by decide)
    fun i e entry => ⟨e, ((readLet_get s i e).mp entry).1, .refl e⟩

theorem guardFits_settleSweep {s : State} (h : GuardFits s) : GuardFits (settleSweep s) :=
  h.of_gone (goneAtMost_settleSweep s) (frame_settleSweep s) (by decide)
    fun i e entry => ⟨e, ((settleSweep_get s i e).mp entry).1, .refl e⟩

theorem guardFits_withdraw (c : LetEntry → Bool) {s : State} (h : GuardFits s) : GuardFits (withdraw c s) :=
  h.of_gone (goneAtMost_withdraw c s) (frame_withdraw c s) (by decide)
    fun i e entry => ⟨e, ((withdraw_get c s i e).mp entry).1, .refl e⟩

theorem guardFits_leaveThrottle {p : Port} {s : State} (h : GuardFits s) (linked : (s.port p).guard.linked = true) :
    GuardFits (leaveThrottle p s) := by
  have left (g : GuardState) (into : g.linked = true) (free : g ≠ .blocked) :
      GuardFits (goPlain p g .clear (readLet s)) :=
    guardFits_moveGuard 0 0 _ (guardFits_readLet h) (by rw [readLet_port]; exact linked) into free
  unfold leaveThrottle
  refine guardFits_settleSweep ?_
  split
  · exact left .suspect rfl (by decide)
  · exact left .forward rfl (by decide)

theorem guardFits_clearEvent (p : Port) {s : State} (h : GuardFits s) : GuardFits (clearEvent p s) := by
  unfold clearEvent
  split
  · next ended => exact guardFits_leaveThrottle h (by rw [ended.1]; rfl)
  · exact h

theorem guardFits_throttleEnds (p : Port) {s : State} (h : GuardFits s) : GuardFits (throttleEnds p s) := by
  have judged : GuardFits (s.modPort p fun r => { r with throttleDue := false }) :=
    guardFits_modPort h (.of_same rfl rfl rfl rfl)
  unfold throttleEnds
  dsimp only
  split
  · next due =>
    obtain ⟨-, throttled, -⟩ := due
    refine guardFits_leaveThrottle judged ?_
    rw [port_modPort_self]
    show (s.port p).guard.linked = true
    rw [throttled]; rfl
  · exact judged

theorem guardFits_holdEnds (p : Port) {s : State} (h : GuardFits s) : GuardFits (holdEnds p s) := by
  have judged : GuardFits (s.modPort p fun r => { r with holdDue := false }) :=
    guardFits_modPort h (.of_same rfl rfl rfl rfl)
  unfold holdEnds
  dsimp only
  split
  · next due =>
    obtain ⟨-, blocked, -⟩ := due
    refine guardFits_settleSweep ?_
    split
    · exact guardFits_readLet judged
    · refine guardFits_moveGuard 0 0 _ (guardFits_readLet judged) ?_ rfl (by decide)
      rw [readLet_port, port_modPort_self]
      show (s.port p).guard.linked = true
      rw [blocked]; rfl
  · exact judged

theorem guardFits_decayEnds (p : Port) {s : State} (h : GuardFits s) : GuardFits (decayEnds p s) :=
  guardFits_ite h (guardFits_modPort h (.of_same rfl rfl rfl rfl))

theorem guardFits_portEnds (p : Port) {s : State} (h : GuardFits s) : GuardFits (portEnds p s) :=
  guardFits_decayEnds p (guardFits_holdEnds p (guardFits_throttleEnds p h))

theorem guardFits_lowerPortsEnd (p : Port) {s : State} (h : GuardFits s) : GuardFits (lowerPortsEnd p s) :=
  List.foldlRecOn (motive := GuardFits) _ _ h fun _ ht q _ => guardFits_portEnds q ht

theorem guardFits_listenBook (p : Port) (quiet : Bool) {s : State} (h : GuardFits s) :
    GuardFits (listenBook p quiet s) := by
  unfold listenBook
  split
  · next listens =>
    exact guardFits_settleSweep (guardFits_listenJudge _ (guardFits_readLet h) (by rw [readLet_port, listens]; rfl))
  · exact h

theorem guardFits_uplinkBook {s : State} (h : GuardFits s) : GuardFits (uplinkBook s) :=
  guardFits_ite h
    (List.foldlRecOn (motive := GuardFits) _ _ h fun _ ht p _ => guardFits_ite ht (guardFits_listenBook p true ht))

/-! ### Confirmations -/

/-- An entry of the LET written anew, with its pair and its victim. -/
theorem guardFits_writeLet {i : Fin 16} {f e : LetEntry} {s : State} (h : GuardFits s)
    (entry : s.evidence.slots.get i = some f) (alike : f.Alike e) : GuardFits (writeLet i e s) := by
  refine h.of_gone (.of_ports rfl) (frame_writeLet i e s) (by decide) fun j g written => ?_
  rw [writeLet_get] at written
  split at written
  · next same =>
    cases written
    exact ⟨f, same ▸ entry, alike.egress, alike.ingress, alike.victim⟩
  · exact ⟨g, written, .refl g⟩

/-- A confirmation blocks at most the victim of its entry, which is an ACCESS port. -/
theorem guardFits_confirmEffects {e : LetEntry} (first : Bool) {s : State} (h : GuardFits s)
    (access : ∀ v, e.victim = some v → (s.port v).role = .access) : GuardFits (confirmEffects e first s) := by
  refine h.of_ports (fun q => ?_) (frame_confirmEffects e first s) (by decide)
  rw [confirmEffects_port]
  split
  · next struck => exact ⟨struck_stands _ struck.2, fun _ => Or.inr (access q struck.1)⟩
  · exact .refl _

theorem guardFits_confirmSlot (i : Fin 16) {s : State} (h : GuardFits s) : GuardFits (confirmSlot i s) := by
  cases entry : s.evidence.slots.get i with
  | none =>
    unfold confirmSlot
    simp only [entry]
    exact h
  | some e =>
    rw [confirmSlot_eq entry]
    exact guardFits_confirmEffects _ (guardFits_writeLet h entry ⟨rfl, rfl, rfl⟩)
      fun v is => (h.victim i e v entry is).1

theorem guardFits_confirmCheck (i : Fin 16) {s : State} (h : GuardFits s) : GuardFits (confirmCheck i s) := by
  unfold confirmCheck
  split
  · exact h
  · exact guardFits_ite h (guardFits_confirmSlot i h)

theorem guardFits_creditSlot (i : Fin 16) {s : State} (h : GuardFits s) : GuardFits (creditSlot i s) := by
  unfold creditSlot
  split
  · exact h
  · next entry => exact guardFits_confirmCheck i (guardFits_writeLet h entry ⟨rfl, rfl, rfl⟩)

theorem guardFits_interlock (p : Port) {s : State} (h : GuardFits s) : GuardFits (interlock p s) := by
  refine List.foldlRecOn (motive := GuardFits) _ _ h fun t ht i _ => ?_
  unfold interlockSlot
  split
  · exact ht
  · exact guardFits_ite ht (guardFits_confirmSlot i ht)

/-! ### Sightings -/

/-- The victim of a new entry is an ACCESS port of its pair (R62). -/
theorem chooseVictim_access {x y v : Port} {s : State} (h : chooseVictim x y s = some v) :
    (s.port v).role = .access ∧ (v = x ∨ v = y) := by
  obtain ⟨own, none, both, egress, ingress, neither⟩ := victimAndEvictionChoice.1 s x y
  by_cases same : x = y
  · by_cases access : (s.port x).role = .access
    · obtain rfl := Option.some.inj ((own same access).symm.trans h)
      exact ⟨access, Or.inl rfl⟩
    · rw [none same access] at h; cases h
  · by_cases access : (s.port x).role = .access <;> by_cases access' : (s.port y).role = .access
    · rw [both same access access'] at h
      split at h <;> obtain rfl := Option.some.inj h
      · exact ⟨access', Or.inr rfl⟩
      · exact ⟨access, Or.inl rfl⟩
    · obtain rfl := Option.some.inj ((egress same access access').symm.trans h)
      exact ⟨access, Or.inl rfl⟩
    · obtain rfl := Option.some.inj ((ingress same access access').symm.trans h)
      exact ⟨access', Or.inr rfl⟩
    · rw [neither same access access'] at h; cases h

/-- A new entry of the LET, which comes in no load. -/
theorem guardFits_newEntry (i : Fin 16) (x y : Port) {s : State} (h : GuardFits s)
    (loaded : s.control.loading = false) : GuardFits (writeLet i (newEntry x y s) s) where
  fits := h.fits
  blocked := h.blocked
  victim j e v entry is := by
    rw [writeLet_get] at entry
    split at entry
    · cases entry
      exact chooseVictim_access is
    · exact h.victim j e v entry is
  loading l := absurd (loaded.symm.trans l) (by decide)

theorem guardFits_createIn (i : Fin 16) (x y : Port) (evicted : Option Port) {s : State} (h : GuardFits s)
    (loaded : s.control.loading = false) : GuardFits (createIn i x y evicted s) := by
  have gone : GuardFits (evictedGone evicted (writeLet i (newEntry x y s) s)) := by
    have made := guardFits_newEntry i x y h loaded
    unfold evictedGone
    split
    · split
      · exact made
      · exact guardFits_evidenceGone _ made
    · exact made
  refine guardFits_confirmCheck i ?_
  unfold newVictimEvidence
  split
  · exact guardFits_evidenceEvent _ gone
  · exact gone

theorem guardFits_sighting (x y : Port) {s : State} (h : GuardFits s) (loaded : s.control.loading = false) :
    GuardFits (sighting x y s) := by
  have read := guardFits_readLet h
  have loaded' : (readLet s).control.loading = false := (thinned_readLet s).loading.trans loaded
  unfold sighting
  refine guardFits_settleSweep ?_
  split
  · exact guardFits_creditSlot _ read
  · obtain ⟨m, seat⟩ := exists_seat (readLet s)
    have evict := frame_evicting m (readLet s)
    rw [createEntry_seat seat]
    refine guardFits_createIn m x y _ ?_ ((congrArg ModeUnit.loading (evict .control (by decide))).trans loaded')
    exact read.of_gone (.of_ports (evict .ports (by decide))) evict (by decide)
      fun i e entry => ⟨e, evicting_slots m (readLet s) ▸ entry, .refl e⟩

end Sys2Proof.Machine
end

section
/-! SUPPORT. Only an ACCESS port is ever BLOCKED: the events of the Flood Meter, the Probe Unit, the Port Table, the
Command Arbiter and the Mode Unit (R6, R7, R10 to R13, R30, R40, R47, R62, R78, R147, R148). -/

namespace Sys2Proof.Machine

/-! ### Modes and the meter -/

theorem guardFits_setMode (m : Mode) (c : ModeCause) {s : State} (h : GuardFits s) : GuardFits (setMode m c s) := by
  have moved := guardFits_set_control h { s.control with mode := m, hostLost := 0, hostLostDue := false } rfl
  unfold setMode
  exact moved.of_frame (frame_report _ _) (by decide)

theorem guardFits_wake (k : WakeKind) (p : Port) {s : State} (h : GuardFits s) : GuardFits (wake k p s) :=
  guardFits_ite h (guardFits_setMode _ _ h)

theorem guardFits_tripEvent (p : Port) {s : State} (h : GuardFits s) : GuardFits (tripEvent p s) := by
  have locked := guardFits_interlock p (guardFits_readLet (guardFits_wake .trip p h))
  unfold tripEvent
  refine guardFits_settleSweep ?_
  split
  · exact locked
  · exact guardFits_tripPassed p locked

theorem guardFits_digestAtMeter (p : Port) (stamp : Byte) (n : Nat) {s : State} (h : GuardFits s) :
    GuardFits (digestAtMeter p stamp n s) := by
  have late : GuardFits (lateDigest s) := h.of_frame (frame_lateDigest s) (by decide)
  have updated : GuardFits (s.setPort p (meterUpdate (s.rowAt p) n (s.port p))) :=
    guardFits_setPort h (.of_same rfl rfl rfl rfl)
  unfold digestAtMeter
  split
  · exact h
  · refine guardFits_ite (guardFits_ite (guardFits_ite ?_ late) late) late
    unfold takeDigest
    refine GuardFits.of_frame ?_ (frame_watchDigest _ _ _) (by decide)
    split
    · exact guardFits_tripEvent p updated
    · exact guardFits_ite updated (guardFits_clearEvent p updated)

/-! ### Probes and rounds -/

theorem guardFits_catchAtProbe (y x : PortField) (r : Round) (d : Identity) {s : State} (h : GuardFits s)
    (loaded : s.control.loading = false) : GuardFits (catchAtProbe y x r d s) := by
  have counted (t : State) (u : ProbeUnit) (ht : GuardFits t) : GuardFits { t with probe := u } :=
    ht.of_frame (frame_set_probe t u) (by decide)
  have read : GuardFits (readOpt s) := h.of_frame (frame_readOpt s) (by decide)
  have found (i : Fin 32) (y : Port) : GuardFits (catchFound i y (readOpt s)) := by
    have woken := guardFits_wake .caught y read
    have awake := ((thinned_readOpt s).trans (thinned_wake .caught y _)).loading.trans loaded
    unfold catchFound
    split
    · exact read
    · dsimp only
      split
      · exact woken
      · exact guardFits_sighting _ _ (woken.of_frame (frame_writeOpt _ _ _) (by decide)) awake
  unfold catchAtProbe
  split
  · exact counted s _ h
  · split
    · unfold catchOn
      split
      · dsimp only
        split
        · exact counted _ _ read
        · exact found _ _
      · exact counted s _ h
    · exact counted s _ h

theorem guardFits_expireSlot (i : Fin 32) {s : State} (h : GuardFits s) : GuardFits (expireSlot i s) := by
  unfold expireSlot
  split
  · exact h
  · next e _ =>
    have withdrawn := guardFits_withdraw (fun l => decide (l.egress = e.egress) && !decide (l.ingress ∈ e.caught)) h
    exact (guardFits_ite withdrawn (guardFits_listenBook _ _ withdrawn)).of_frame (frame_clearOpt i _) (by decide)

theorem guardFits_expireAll (l : List (Fin 32)) {s : State} (h : GuardFits s) :
    GuardFits (l.foldl (fun u i => expireSlot i u) s) :=
  List.foldlRecOn (motive := GuardFits) _ _ h fun _ ht i _ => guardFits_expireSlot i ht

theorem guardFits_expireDue {s : State} (h : GuardFits s) : GuardFits (expireDue s) := guardFits_expireAll _ h

theorem guardFits_roundSteps {s : State} (h : GuardFits s) : GuardFits (roundSteps s) := by
  have opened : GuardFits (roundOpened s) := h.of_frame (frame_set_round s _ _) (by decide)
  have read : GuardFits (readOpt (roundOpened s)) := opened.of_frame (frame_readOpt _) (by decide)
  have dealt : GuardFits (dealOld (nextRound s) (roundOpened s)) :=
    guardFits_expireAll _ (read.of_frame (frame_eraseOpt _ _) (by decide))
  rw [roundSteps_eq]
  exact dealt.of_frame (frame_set_probe _ _) (by decide)

theorem guardFits_takeRound {s : State} (h : GuardFits s) : GuardFits (takeRound s) :=
  guardFits_ite h (guardFits_uplinkBook (guardFits_roundSteps h))

/-! ### Link events -/

theorem guardFits_linkUpEvent {p : Port} {s : State} (h : GuardFits s) (present : (s.port p).present = true) :
    GuardFits (linkUpEvent p s) := by
  refine h.of_thinned (thinned_linkUpEvent present) (fun q => ?_) (fun q blocked => ?_) fun i e entry => ?_
  · by_cases same : q = p
    · subst same; exact (linkUpEvent_seat q s).role
    · rw [linkUpEvent_port, if_neg same]
  · by_cases same : q = p
    · subst same
      rw [linkUpEvent_port, if_pos rfl, PortRec.raised] at blocked
      split at blocked
      · exact absurd (enter_blocked blocked) (by decide)
      · exact blocked
    · rwa [linkUpEvent_port, if_neg same] at blocked
  · have evidence : (linkUpEvent p s).evidence = s.evidence := frame_linkUpEvent p s .evidence (by decide)
    exact evidence ▸ entry

/-- A link-down event blocks no port. -/
theorem linkDownTo_blocked {g : GuardState} (c : StateCause) (p q : Port) {s : State} (free : g ≠ .blocked)
    (blocked : ((linkDownTo g c p s).port q).guard = .blocked) : (s.port q).guard = .blocked := by
  have down : ((portDown g c p s).port q).guard = .blocked := by
    rw [linkDownTo_eq] at blocked
    exact (goneAtMost_portCleared p _).unblocks blocked
  rw [portDown_port] at down
  split at down
  · rw [(lowered_spec g _ _).guard] at down
    split at down
    · cases down
    · exact absurd down free
  · exact down

/-- A link-down event leaves no entry that did not stand. -/
theorem linkDownTo_slots {g : GuardState} {c : StateCause} {p : Port} {s : State} {i : Fin 16} {e : LetEntry}
    (entry : (linkDownTo g c p s).evidence.slots.get i = some e) : s.evidence.slots.get i = some e := by
  have evidence : (portDown g c p s).evidence = s.evidence := frame_portDown g c p s .evidence (by decide)
  rw [linkDownTo_eq, portCleared_slots, evidence] at entry
  exact entry.1

theorem guardFits_linkDownEvent (p : Port) {s : State} (h : GuardFits s) : GuardFits (linkDownEvent p s) := by
  have blocks (q : Port) : ((linkDownEvent p s).port q).guard = .blocked → (s.port q).guard = .blocked :=
    linkDownTo_blocked .linkDown p q (by decide)
  have old (i : Fin 16) (e : LetEntry) (entry : (linkDownEvent p s).evidence.slots.get i = some e) :
      s.evidence.slots.get i = some e := by
    rw [linkDownEvent] at entry
    exact linkDownTo_slots entry
  refine h.of_thinned (thinned_linkDownEvent p s) (fun q => ?_) blocks old
  by_cases same : q = p
  · subst same; exact (linkDownEvent_seat q s).role
  · exact (linkDownTo_other .down .linkDown s same).role

theorem guardFits_linkReport (p : Port) (up : Bool) {s : State} (h : GuardFits s) : GuardFits (linkReport p up s) := by
  unfold linkReport
  split
  · next report =>
    split
    · exact guardFits_linkUpEvent h report.1
    · exact guardFits_linkDownEvent p h
  · exact h

theorem guardFits_absence (p : Port) {s : State} (h : GuardFits s) : GuardFits (absence p s) := by
  have kept (q : Port) (r : PortRec) (k : (s.modPort p PortRec.absented).port q = r) (b : r.guard = .blocked) :
      (s.port q).guard = .blocked := by
    subst k
    rw [port_modPort] at b
    split at b
    · next same => rw [same]; exact (absented_absent _).2.2.symm.trans b
    · exact b
  refine h.of_thinned (thinned_absence p s) (fun q => ?_) (fun q blocked => ?_) fun i e entry => ?_
  · by_cases same : q = p
    · subst same; exact (absence_port q s).1.role
    · exact (absence_other s same).role
  · rw [absence_eq] at blocked
    split at blocked
    · exact kept q _ rfl (linkDownTo_blocked .absent p q (by decide) blocked)
    · split at blocked
      · exact kept q _ rfl blocked
      · rw [goPlain_port] at blocked
        split at blocked
        · exact absurd (enter_blocked blocked) (by decide)
        · exact kept q _ rfl blocked
  · rw [absence_eq] at entry
    split at entry
    · have old := linkDownTo_slots entry
      rwa [modPort_evidence] at old
    · split at entry
      · rwa [modPort_evidence] at entry
      · rwa [show (goPlain p .disabled .absent (s.modPort p PortRec.absented)).evidence = s.evidence from
          frame_goPlain _ _ _ _ .evidence (by decide)] at entry

/-! ### Role changes -/

theorem reseated_spared (q : Policy) {old new : Role} (r : PortRec) (changed : new ≠ old) :
    r.Spared (r.reseated q old new) := by
  obtain ⟨kept, guard, role, -⟩ := reseated_fields q r changed
  exact .of_same role kept.table.1 kept.table.2 guard.guard

/-- Step 2 of a role change blocks no port. -/
theorem seatAll_spared {old table : Port → Role} {l : List Port} (changed : ∀ p ∈ l, table p ≠ old p)
    (s : State) (q : Port) : (s.port q).Spared ((seatAll old table l s).port q) := by
  induction l generalizing s with
  | nil => exact .refl _
  | cons p l ih =>
    have withdrawn : (s.port q).Spared ((withdraw (involves p) s).port q) := (goneAtMost_withdraw _ s).spared q
    refine PortRec.Spared.trans ?_ (ih (fun c mem => changed c (List.mem_cons_of_mem _ mem)) _)
    rw [roleStep2_port]
    split
    · next same =>
      subst same
      exact withdrawn.trans (reseated_spared _ _ (changed q List.mem_cons_self))
    · exact withdrawn

/-- The role rule leaves in BLOCKED only a port that keeps the role ACCESS (R11). -/
theorem ruledGuard_blocked {new : Role} {r : PortRec} (fits : r.Fits) (access : r.guard = .blocked → r.role = .access)
    (blocked : ruledGuard new r = .blocked) : new = .access := by
  unfold ruledGuard at blocked
  split at blocked
  · next stays =>
    have linked : r.linkUp = true := fits.linked (by rw [blocked]; rfl)
    rcases stays with same | absent
    · exact same.trans (access blocked)
    · exact absurd (linked.symm.trans (fits.absent absent)) (by decide)
  · split at blocked
    · cases blocked
    · split at blocked
      · split at blocked <;> cases blocked
      · split at blocked
        · cases blocked
        · next away => exact absurd ⟨access blocked, blocked⟩ away

/-- A role change drops the evidence of every port it changes, so a victim that is left has kept its role. -/
theorem guardFits_roleChange (table : Port → Role) {s : State} (h : GuardFits s) :
    GuardFits (roleChange table s) := by
  have thinned := thinned_roleChange table s
  have evidence : (afterRules table s).evidence = s.evidence := frame_afterRules table s .evidence (by decide)
  have old {i : Fin 16} {e : LetEntry} (entry : (roleChange table s).evidence.slots.get i = some e) :
      s.evidence.slots.get i = some e := by
    rw [roleChange_eq] at entry
    exact evidence ▸ (seatAll_slots entry).1
  refine ⟨thinned.fits h.fits, fun p blocked => ?_, fun i e v entry is => ?_, fun l i => ?_⟩
  · have spared := seatAll_spared (old := fun p => (s.port p).role) (table := table) (l := changedList table s)
      (fun p mem => mem_changedList.mp mem) (afterRules table s) p
    rw [← roleChange_eq] at spared
    rw [(roleChange_all table s p).1]
    rcases spared.blocked blocked with ruled | access
    · rw [afterRules_guard] at ruled
      exact ruledGuard_blocked (h.fits p) (h.blocked p) ruled
    · exact (afterRules_role table s p).symm.trans access
  · obtain ⟨access, own⟩ := h.victim i e v (old entry) is
    have unchanged : ¬ Changed table s v := fun changed => by
      obtain ⟨egress, ingress⟩ := roleChange_slots changed entry
      exact own.elim (fun is => egress is.symm) fun is => ingress is.symm
    rw [(roleChange_unchanged unchanged).role]
    exact ⟨access, own⟩
  · cases entry : (roleChange table s).evidence.slots.get i with
    | none => rfl
    | some e =>
      have was := old entry
      rw [h.loading (thinned.loading.symm.trans l) i] at was
      cases was

/-! ### Policy and mode -/

theorem guardFits_applyPolicy (q : Policy) {s : State} (h : GuardFits s) : GuardFits (applyPolicy q s) := by
  have clamped : GuardFits (s.mapPorts fun _ r => clampRec s.control.policy q r) :=
    guardFits_mapPorts h fun _ _ => .of_same rfl rfl rfl rfl
  exact guardFits_set_control clamped _ rfl

theorem guardFits_enterAutonomous (c : ModeCause) {s : State} (h : GuardFits s) : GuardFits (enterAutonomous c s) := by
  have cleared : GuardFits (clearOverrides (setMode .autonomous c s)) :=
    guardFits_mapPorts (guardFits_setMode .autonomous c h) fun _ r => overridden_spared .noOverride r
  exact guardFits_roleChange _ (guardFits_applyPolicy _ cleared)

theorem guardFits_hostLostEnds {s : State} (h : GuardFits s) : GuardFits (hostLostEnds s) :=
  guardFits_ite h (guardFits_enterAutonomous _ h)

theorem guardFits_startDone {s : State} (h : GuardFits s) : GuardFits (startDone s) := by
  have booted : GuardFits (booted s) := by
    unfold Machine.booted
    split
    · exact guardFits_setMode _ _ h
    · exact guardFits_enterAutonomous _ h
  rw [startDone_eq]
  exact guardFits_roundSteps (booted.of_frame (frame_opened s) (by decide))

/-! ### The interval and the command channel -/

theorem guardFits_settleInterval {s : State} (h : GuardFits s) : GuardFits (settleInterval s) := by
  have ended : GuardFits (allPorts.foldl (fun u p => portEnds p u) (takeRound (expireDue s))) :=
    List.foldlRecOn (motive := GuardFits) _ _ (guardFits_takeRound (guardFits_expireDue h))
      fun _ ht p _ => guardFits_portEnds p ht
  exact (guardFits_hostLostEnds ended).of_frame (frame_strobesSent _) (by decide)

theorem guardFits_intervalTick {s : State} (h : GuardFits s) : GuardFits (intervalTick s) := by
  have strobed : GuardFits (strobed s) :=
    h.of_ports (fun p => by rw [strobed_port]; exact .of_same rfl rfl rfl rfl) (frame_strobed s) (by decide)
  have read : GuardFits (readOpt (Machine.strobed s)) := strobed.of_frame (frame_readOpt _) (by decide)
  have counted := guardFits_mapPorts
    (f := fun _ r => tickRec (readOpt (Machine.strobed s)).control.policy.tDECAY r) read fun _ r => tickRec_spared _ r
  rw [intervalTick_eq]
  exact guardFits_ite counted (guardFits_set_control counted _ rfl)

theorem guardFits_commandTimeout (o : Outstanding) {s : State} (h : GuardFits s) : GuardFits (commandTimeout o s) := by
  have timed : GuardFits (timedOut s) := h.of_frame (frame_set_glink s _) (by decide)
  have ended : GuardFits (commandEnded o s) := by
    unfold commandEnded
    split
    · exact (guardFits_modPort timed (.of_same rfl rfl rfl rfl)).of_frame (frame_set_arbiter _ _) (by decide)
    · exact timed.of_frame (frame_probeEnded _ _ _) (by decide)
  have counted : GuardFits (countTimeout (commandEnded o s)) := ended.of_frame (frame_countTimeout _) (by decide)
  rw [commandTimeout_eq]
  refine guardFits_ite counted
    (counted.of_ports (fun p => ?_) (frame_linkFails o.port o.kind.command _) (by decide))
  rw [linkFails_port]
  exact .of_same rfl rfl rfl rfl

theorem guardFits_grantSetport (p : Port) {s : State} (h : GuardFits s) : GuardFits (grantSetport p s) := by
  have marked : GuardFits (s.modPort p fun r => ({ r with inFlight := some (s.port p).wanted } : PortRec).recompute) :=
    guardFits_modPort h (.of_same rfl rfl rfl rfl)
  exact (marked.of_frame (frame_set_channel _ _ _) (by decide)).of_frame (frame_handTx _ _) (by decide)

end Sys2Proof.Machine
end

section
/-! SUPPORT. Only an ACCESS port is ever BLOCKED: the requests, the inbound records and every command (R62, R78). -/

namespace Sys2Proof.Machine

/-! ### Requests -/

theorem guardFits_takeFrame (body : List Byte) {s : State} (h : GuardFits s) : GuardFits (takeFrame body s) := by
  have ended := guardFits_hostLostEnds h
  exact ⟨ended.fits, ended.blocked, ended.victim, ended.loading⟩

theorem guardFits_modeTo (m : Mode) {s : State} (h : GuardFits s) : GuardFits (modeTo m s).state := by
  unfold modeTo
  split
  · exact h
  · split
    · exact guardFits_enterAutonomous _ h
    · exact guardFits_setMode _ _ h
    · split
      · exact guardFits_setMode _ _ h
      · exact h
    · exact h

theorem guardFits_setOverride (p : Port) (o : Override) {s : State} (h : GuardFits s) :
    GuardFits (setOverride p o s) := guardFits_modPort h (overridden_spared o _)

theorem guardFits_lessonRefill {s : State} (h : GuardFits s) : GuardFits (lessonRefill s) :=
  guardFits_mapPorts h fun _ r => by split <;> exact .of_same rfl rfl rfl rfl

theorem guardFits_clearCounts {s : State} (h : GuardFits s) : GuardFits (clearCounts s) :=
  ⟨h.fits, h.blocked, h.victim, h.loading⟩

/-- What an owning block answers: six of them touch guard records, the LET or the Mode Unit. -/
theorem guardFits_act (k : RequestKind) (fields : List Byte) {s : State} (h : GuardFits s) :
    GuardFits (k.act fields s).state := by
  have frame := frame_requestAct k fields s
  cases k with
  | stat =>
    show GuardFits (doStat fields s).state
    unfold doStat
    split
    · exact h
    · split
      · exact h
      · split
        · exact guardFits_clearCounts h
        · exact h
    · exact h
  | mode =>
    show GuardFits (doMode fields s).state
    unfold doMode
    split
    · split
      · exact guardFits_modeTo _ h
      · exact h
    · exact h
  | setp =>
    show GuardFits (doSetp fields s).state
    unfold doSetp
    split
    · exact guardFits_applyPolicy _ h
    · exact h
  | roles =>
    show GuardFits (doRoles fields s).state
    unfold doRoles
    split
    · exact h
    · split
      · exact h
      · split
        · unfold rolesCodes
          split
          · exact h
          · exact guardFits_roleChange _ h
        · exact h
  | ovrd =>
    show GuardFits (doOvrd fields s).state
    unfold doOvrd
    split
    · split
      · unfold ovrdPort
        split
        · exact h
        · exact guardFits_setOverride _ _ h
      · exact h
    · exact h
  | lesson =>
    show GuardFits (doLesson fields s).state
    unfold doLesson
    split
    · exact guardFits_lessonRefill h
    · exact h
  | _ => exact h.of_frame frame (by decide)

theorem guardFits_ifServed (k : RequestKind) (fields : List Byte) {s : State} (h : GuardFits s) :
    GuardFits (ifServed k (k.act fields) s).state := by
  unfold ifServed
  split
  · exact guardFits_act k fields h
  · exact h

theorem guardFits_sendReply (kind : Byte) {a : Answer} (h : GuardFits a.state) : GuardFits (sendReply kind a) :=
  h.of_frame (frame_sendReply kind a) (by decide)

/-- A request frame, carried out or refused as busy. -/
theorem guardFits_request (kind : Byte) (fields : List Byte) {act : State → Answer}
    (acts : ∀ t, GuardFits t → GuardFits (act t).state) {s : State} (h : GuardFits s) :
    GuardFits (request kind fields act s) := by
  unfold request
  split
  · split
    · exact guardFits_sendReply kind (acts _ (guardFits_takeFrame _ h))
    · exact h.of_frame (frame_frameBusy kind s) (by decide)
  · exact h

theorem guardFits_serve (body : List Byte) {s : State} (h : GuardFits s) : GuardFits (serve body s) := by
  unfold serve
  split
  · exact h
  · next kind fields =>
    have taken := guardFits_takeFrame (kind :: fields) h
    refine guardFits_sendReply kind ?_
    unfold answerTo
    split
    · exact guardFits_ifServed _ _ taken
    · exact taken

/-- A character, with the judgement of the frame it may complete. -/
theorem guardFits_character (b : Byte) (stop : CharacterEnd) {s : State} (h : GuardFits s) :
    GuardFits (judgeComplete (receiveChar b stop.framingFault (sampleKey stop.key s))) := by
  have sampled : GuardFits (sampleKey stop.key s) := h.of_frame (frame_sampleKey _ s) (by decide)
  have received : GuardFits (receiveChar b stop.framingFault (sampleKey stop.key s)) :=
    sampled.of_frame (frame_receiveChar _ _ _) (by decide)
  have judged (f : Frame) {t : State} (ht : GuardFits t) : GuardFits (judgeFrame f t) := by
    unfold judgeFrame
    split
    · exact ht.of_frame (frame_frameCheckFails t) (by decide)
    · split
      · exact guardFits_serve _ ht
      · exact ht.of_frame (frame_frameBusy _ t) (by decide)
  unfold judgeComplete
  split
  · exact received
  · exact judged _ (received.of_frame (frame_set_mgmt _ _) (by decide))

/-! ### Inbound records -/

theorem guardFits_sweepAnswered (p : Port) {s : State} (h : GuardFits s) : GuardFits (sweepAnswered p s) := by
  have left : GuardFits (leaveSweep p s) := guardFits_set_control h _ rfl
  exact guardFits_ite h (guardFits_ite left (guardFits_startDone left))

theorem guardFits_ackTaken (f : PortField) (ok up : Bool) {s : State} (h : GuardFits s) :
    GuardFits (ackTaken f ok up s) := by
  have seen : GuardFits (ackSeen s) := h.of_frame (frame_ackSeen s) (by decide)
  have stray : GuardFits (strayAck (ackSeen s)) := seen.of_frame (frame_set_glink _ _) (by decide)
  have ended : GuardFits (endCommand (ackSeen s)) := seen.of_frame (frame_endCommand _) (by decide)
  unfold ackTaken
  split
  · exact stray
  · refine guardFits_ite stray ?_
    unfold ackEnds
    split
    · refine guardFits_sweepAnswered _ ?_
      split
      · exact guardFits_linkReport _ _ (guardFits_modPort ended (.of_same rfl rfl rfl rfl))
      · exact guardFits_absence _ ended
    · refine guardFits_linkReport _ _ ?_
      split
      · exact ended.of_frame (frame_probeAcked _ _ _) (by decide)
      · exact ended.of_frame (frame_probeEnded _ _ _) (by decide)

/-- A valid record reaches its block only once the load is done. -/
theorem guardFits_inbound (k : InboundKind) (f : PortField) {act : State → State}
    (acts : ∀ t, t.control.loading = false → GuardFits t → GuardFits (act t)) {s : State} (h : GuardFits s) :
    GuardFits (inbound k f act s) := by
  have done : GuardFits (recordDone s) := h.of_frame (frame_set_glink s _) (by decide)
  have returned : OnlyChanges [.glink, .reports, .arbiter] s (linkReturns f k (recordDone s)) :=
    (OnlyChanges.mono (frame_set_glink s _) (by decide)).comp (frame_linkReturns f k _) (by decide)
  unfold inbound
  split
  · exact done
  · next loaded =>
    have control : (linkReturns f k (recordDone s)).control = s.control := returned .control (by decide)
    exact acts _ (by rw [control]; exact Bool.eq_false_iff.mpr loaded) (h.of_frame returned (by decide))

/-- A record with a port field, which may name no port. -/
theorem guardFits_record (k : InboundKind) (f : PortField) {act : Port → State → State}
    (acts : ∀ p t, GuardFits t → GuardFits (act p t)) {s : State} (h : GuardFits s) :
    GuardFits (inbound k f (fun t => match portOf f with | some p => act p t | none => badPort t) s) := by
  refine guardFits_inbound k f (fun t _ ht => ?_) h
  split
  · exact acts _ t ht
  · exact ht.of_frame (frame_set_glink t _) (by decide)

/-! ### Every command -/

theorem guardFits_resetTo (c : ResetCause) (baud : Bool) (s : State) : GuardFits (resetTo c baud s) :=
  ⟨guardFits_reset.fits, guardFits_reset.blocked, guardFits_reset.victim, fun _ => reset_slots⟩

/-- At the end of the load every port has its start-up record, and the LET is empty still. -/
theorem guardFits_loadDone {s : State} (loading : s.control.loading = true) (h : GuardFits s) :
    GuardFits (loadDone s) where
  fits p := by rw [loadDone_port]; exact startRecord_fits _ _
  blocked p b := by
    rw [loadDone_port, startRecord] at b
    dsimp only at b
    split at b <;> cases b
  victim i e v entry := by
    have empty : (loadDone s).evidence.slots.get i = none := h.loading loading i
    rw [empty] at entry
    cases entry
  loading l := by cases l

/-- A command that leaves the records, the LET and the Mode Unit. -/
theorem guardFits_aside {c : Instr} {s t : State} (h : GuardFits s)
    (aside : ∀ a ∈ touches c, a ∉ [Part.ports, .evidence, .control]) (run : exec c s = .next t) :
    GuardFits t := by
  obtain ⟨u, run', frame⟩ := exec_frame c s
  cases run.symm.trans run'
  exact h.of_frame frame aside

/-- A request command, each of which takes the one path of `request`. -/
theorem guardFits_requested {c : Instr} {kind : Byte} {fields : List Byte} (request : requestOf c = some (kind, fields))
    {s t : State} (h : GuardFits s) (run : exec c s = .next t) : GuardFits t := by
  have read : GuardFits (keyRead c s) := by
    have sampled (level : Bool) : GuardFits (sampleKey level s) := h.of_frame (frame_sampleKey level s) (by decide)
    unfold keyRead
    split
    · exact sampled _
    · exact sampled _
    · exact sampled _
    · exact h
  obtain ⟨k, run'⟩ := exec_request request s
  cases run.symm.trans run'
  exact guardFits_request _ _ (fun t => guardFits_ifServed k _) read

theorem exec_guardFits (c : Instr) {s t : State} (h : GuardFits s) (run : exec c s = .next t) : GuardFits t := by
  cases requested : requestOf c with
  | some request => exact guardFits_requested requested h run
  | none =>
    cases c
    case powerReset baud => cases run; exact guardFits_resetTo _ _ s
    case pinReset baud => cases run; exact guardFits_resetTo _ _ s
    case settingsStoreLoad =>
      cases run
      split
      · next loading => exact guardFits_loadDone loading h
      · exact h
    case intervalEvent =>
      cases run
      split
      · exact h
      · exact guardFits_intervalTick (guardFits_settleInterval h)
    case roundStart => cases run; exact guardFits_ite h (guardFits_takeRound (guardFits_expireDue h))
    case probeExpiry =>
      cases run
      split
      · exact h
      · exact guardFits_expireSlot _ h
    case throttleHoldExpiry p =>
      cases run
      exact guardFits_ite h (guardFits_throttleEnds p (guardFits_lowerPortsEnd p h))
    case holdExpiry p =>
      cases run
      exact guardFits_ite h (guardFits_holdEnds p (guardFits_lowerPortsEnd p h))
    case strikeDecay p => cases run; exact guardFits_decayEnds p h
    case hostLost => cases run; exact guardFits_hostLostEnds h
    case digest f stamp n =>
      cases run
      exact guardFits_record .digest f (fun p t => guardFits_digestAtMeter p stamp n.toNat) h
    case catchRecord y x r d =>
      cases run
      exact guardFits_inbound _ _ (fun t loaded ht => guardFits_catchAtProbe y x r d ht loaded) h
    case link f up => cases run; exact guardFits_record .link f (fun p t => guardFits_linkReport p up) h
    case ack f ok up => cases run; exact guardFits_inbound _ _ (fun t _ => guardFits_ackTaken f ok up) h
    case ackTimeout =>
      cases run
      split
      · exact guardFits_ite h (guardFits_commandTimeout _ h)
      · exact h
    case setport =>
      cases run
      split
      · exact guardFits_grantSetport _ h
      · exact h
      · exact h
    case character b stop => cases run; exact guardFits_character b stop h
    case replyEnd baud =>
      cases run
      exact guardFits_ite h (guardFits_ite (h.of_frame (frame_replyEnds s) (by decide)) (guardFits_resetTo _ _ s))
    case unknown kind fields =>
      cases run
      split
      · exact h
      · exact guardFits_request _ _ (act := fun t => refuse .unknown t) (fun t ht => ht) h
    case inject => exact guardFits_aside h (by decide) run
    case startPacingAllowance => exact guardFits_aside h (by decide) run
    case framingError bits => exact guardFits_aside h (by simp [touches]) run
    case unknownRecord w => exact guardFits_aside h (by simp [touches]) run
    case commandLastBit => exact guardFits_aside h (by decide) run
    case strobeLastBit => exact guardFits_aside h (by decide) run
    case gapTimeout => exact guardFits_aside h (by decide) run
    case checkFail body check => exact guardFits_aside h (by simp [touches]) run
    case rejectBusy kind fields => exact guardFits_aside h (by simp [touches]) run
    case writeCompletion took => exact guardFits_aside h (by simp [touches]) run
    case keyFall => exact guardFits_aside h (by decide) run
    all_goals cases requested

/-- Settles O54: a confirmation alone blocks a port, and it blocks the victim of its entry; an entry names an ACCESS
port of its pair when it is made, and a change of that port's role takes the entry away. -/
theorem protectedPortsAreNeverBlocked : Obligations.ProtectedPortsAreNeverBlocked := by
  intro s t h run
  unfold step at run
  split at run
  · cases run; exact h
  · next rest _ => exact exec_guardFits _ (h.of_frame (frame_set_pending s rest) (by decide)) run

end Sys2Proof.Machine
end

section
/-! SUPPORT. A credited catch that confirms the entry of a standing pair blocks its victim (R59, R63, R65, R66, R90,
R95). -/

namespace Sys2Proof.Machine

/-- An entry after a sighting of its pair (R59). -/
def LetEntry.counted (e : LetEntry) : LetEntry := { e with count := min 7 (e.count + 1), parityOk := true }

/-- Whether an entry is confirmed for the first time matters only to one without a victim (R65). -/
theorem confirmEffects_victim {e : LetEntry} {v : Port} (victim : e.victim = some v) (first : Bool) (s : State) :
    confirmEffects e first s = confirmEffects e true s := by
  unfold confirmEffects
  simp only [victim]

/-- A sighting that confirms the entry of its pair: the entry it leaves, and what it makes of the victim. -/
theorem creditSlot_confirms {i : Fin 16} {e : LetEntry} {v : Port} {s : State}
    (entry : s.evidence.slots.get i = some e) (victim : e.victim = some v) (confirms : e.counted.Confirms s) :
    FirstConfirmed (some v) e.egress e.ingress (max (min 7 (e.count + 1)) s.control.policy.nCONF) s (creditSlot i s) ∧
      ∀ k, (creditSlot i s).evidence.slots.get k =
        if k = i then some (e.counted.confirmedBy s.control.policy.nCONF) else s.evidence.slots.get k := by
  have written : (writeLet i e.counted s).evidence.slots.get i = some e.counted := by rw [writeLet_get, if_pos rfl]; rfl
  have run : creditSlot i s = confirmSlot i (writeLet i e.counted s) :=
    (creditSlot_eq entry).trans (confirmCheck_yes written confirms)
  rw [run]
  constructor
  · have effects := firstConfirmed_effects (e.counted.raisedTo s.control.policy.nCONF)
      (writeLet i (e.counted.raisedTo s.control.policy.nCONF) (writeLet i e.counted s))
    have named : (e.counted.raisedTo s.control.policy.nCONF).victim = some v := victim
    rw [← confirmEffects_victim named (!e.confirmed), named] at effects
    rw [confirmSlot_eq written]
    exact effects.congr (port_congr rfl) rfl rfl rfl
  · intro k
    rw [confirmSlot_get written, writeLet_get]
    split <;> rfl

/-- Settles O19: the sighting raises the count of the entry and confirms it, and the confirmation blocks the victim. -/
theorem confirmationBlocksTheVictim : Obligations.ConfirmationBlocksTheVictim := by
  intro s yp v i e j l loaded link opt sound present up entry new one slot egress ingress only victim blockable confirms
    count strike
  obtain ⟨c, credits, run⟩ := exec_catch_credited loaded opt present up entry new one
  obtain ⟨-, -, policy⟩ := woken_control .caught yp s
  have like := credits.like link
  have evidence : c.evidence = s.evidence := credits.frame .evidence (by decide)
  have port (p : Port) : c.port p = s.port p := port_congr (credits.frame .ports (by decide)) p
  have policy' : c.control.policy = s.control.policy := by rw [credits.control, policy]
  have slot' : c.evidence.slots.get j = some l := by rw [evidence]; exact slot
  have found : findLet e.egress yp c = some j := findLet_unique slot' egress ingress (by rw [evidence]; exact only)
  have confirms' : l.counted.Confirms c := by
    show c.control.policy.nCONF ≤ min 7 (l.count + 1) ∨ (c.port l.egress).trip = true ∨ (c.port l.ingress).trip = true
    rw [policy', port, port, egress, ingress]
    exact confirms
  obtain ⟨confirmed, slots⟩ := creditSlot_confirms slot' victim confirms'
  rw [policy', egress, ingress] at confirmed
  rw [policy', evidence] at slots
  rw [sighting_stands (sound.congr evidence) found] at run
  have told := frame_creditSlot j c
  have first : FirstConfirmed (some v) e.egress yp count (s.woken .caught yp) (creditSlot j c) :=
    confirmed.congr (fun p => (woken_port ..).trans (port p).symm) (like .reports (by decide)).symm
      (congrArg IntervalClock.stamp (like .clock (by decide)).symm) credits.control.symm
  have blocks := first.blocks v rfl
  rw [woken_port, policy] at blocks
  obtain ⟨guard, struck, hold, listen, throttle, decay, reports⟩ := blocks blockable
  refine ⟨_, run, ?_, ?_, guard, struck, hold, listen, throttle, decay, fun q other => ?_, ?_, fun k other => ?_,
    reports⟩
  · exact (((frame_woken _ _ s).mono (by decide)).comp like (by decide)).comp told (by decide)
  · exact (told .control (by decide)).trans credits.control
  · rw [first.others q fun is => other (Option.some.inj is).symm, woken_port]
  · rw [slots, if_pos rfl, LetEntry.confirmedBy, LetEntry.counted, ← sound.2 j l slot]
  · rw [slots, if_neg other]

end Sys2Proof.Machine
end

section
/-! SUPPORT. What the events of the part may do to a port record and to the command channel: the changes of a record,
one kind each, and the chains of them that an event makes (R77, R79, R91, R92, R95, R96, R99, R101). -/

namespace Sys2Proof.Machine

/-! ### Changes of a record -/

/-- The counts with which a port may enter a guard state: each belongs to one state, and the hold has its limit (R77,
R91, R95). -/
structure EntryCounts (tHOLD0 : Nat) (g : GuardState) (n k : Nat) : Prop where
  throttle : g ≠ .throttle → n = 0
  hold : g ≠ .blocked → k = 0
  bound : k ≤ 32 * tHOLD0

/-- One change of a port record, beside the tHOLD0 in force: an entry into a guard state, a count of the guard record, a
field of the Port Table or of the meter, an override, or a new tHOLD0.  The arbiter's own changes are not among them. -/
inductive PortRec.Move : Nat × PortRec → Nat × PortRec → Prop
  | enter {h r g n k} (counts : EntryCounts h g n k) : Move (h, r) (h, r.enter g n k)
  | strike {h r} (n : Nat) (bound : n ≤ 6 ∨ n ≤ r.strike) : Move (h, r) (h, { r with strike := n })
  | listen {h r} (n : Nat) (own : n ≤ r.listen ∨ r.guard = .listen ∧ n ≤ 7) : Move (h, r) (h, { r with listen := n })
  | throttle {h r} (n : Nat) (due : Bool) (own : n ≤ r.throttleHold ∨ r.guard = .throttle) :
    Move (h, r) (h, { r with throttleHold := n, throttleDue := due })
  | hold {h r} (n : Nat) (due : Bool) (bound : n ≤ r.hold) : Move (h, r) (h, { r with hold := n, holdDue := due })
  | decay {h r} (n : Nat) (due : Bool) (own : n ≤ r.decay ∨ r.guard = .forward) :
    Move (h, r) (h, { r with decay := n, decayDue := due })
  | table {h r} (role : Role) (up : Bool) : Move (h, r) (h, { r with role := role, linkUp := up })
  | meter {h r} (f e b : Nat) (trip : Bool) (mark : Mark) :
    Move (h, r) (h, { r with lastF := f, avgE := e, creditB := b, trip := trip, mark := mark })
  | override {h r} (o : Override) : Move (h, r) (h, ({ r with override := o } : PortRec).deriveWanted)
  | policy {h r} (h' : Nat) : Move (h, r) (h', { r with hold := if h' < h then min r.hold (32 * h') else r.hold })

/-- A chain of changes. -/
abbrev PortRec.Moves := Relation.ReflTransGen PortRec.Move

/-- The record of a port, with the tHOLD0 in force. -/
def State.recordOf (s : State) (p : Port) : Nat × PortRec := (s.control.policy.tHOLD0, s.port p)

/-- What an event leaves that is neither the arbiter's nor the transmitter's: each record has moved, the outstanding
command and the records in the transmitter stand, and the fault run has stayed with the link state or is 0. -/
structure Moved (s t : State) : Prop where
  records : ∀ p, PortRec.Moves (s.recordOf p) (t.recordOf p)
  sending : t.glink.sending = s.glink.sending
  waiting : t.glink.waiting = s.glink.waiting
  outstanding : t.glink.outstanding = s.glink.outstanding
  loading : t.control.loading = s.control.loading
  run : t.arbiter.faultRun = 0 ∨ t.arbiter.faultRun = s.arbiter.faultRun ∧ t.glink.state = s.glink.state

theorem Moved.refl (s : State) : Moved s s := ⟨fun _ => .refl, rfl, rfl, rfl, rfl, Or.inr ⟨rfl, rfl⟩⟩

theorem Moved.trans {s t u : State} (h : Moved s t) (k : Moved t u) : Moved s u where
  records p := (h.records p).trans (k.records p)
  sending := k.sending.trans h.sending
  waiting := k.waiting.trans h.waiting
  outstanding := k.outstanding.trans h.outstanding
  loading := k.loading.trans h.loading
  run := by
    rcases k.run with zero | ⟨run, link⟩
    · exact Or.inl zero
    · rw [run, link]; exact h.run

theorem Moved.foldl {α : Type} {f : State → α → State} (h : ∀ s a, Moved s (f s a)) (l : List α) (s : State) :
    Moved s (l.foldl f s) :=
  List.foldlRecOn (motive := Moved s) _ _ (.refl s) fun _ k a _ => k.trans (h _ a)

theorem Moved.ite {c : Prop} [Decidable c] {s t u : State} (h : Moved s t) (k : Moved s u) :
    Moved s (if c then t else u) := by
  split
  · exact h
  · exact k

/-- An event of the records that leaves the arbiter, the link and the Mode Unit. -/
theorem Moved.of_records {l : List Part} {s t : State}
    (records : ∀ p, PortRec.Moves (s.recordOf p) (s.control.policy.tHOLD0, t.port p)) (frame : OnlyChanges l s t)
    (aside : ∀ a ∈ l, a ∉ [Part.arbiter, .glink, .control]) : Moved s t := by
  have arbiter : t.arbiter = s.arbiter := frame .arbiter fun m => aside _ m (by decide)
  have glink : t.glink = s.glink := frame .glink fun m => aside _ m (by decide)
  have control : t.control = s.control := frame .control fun m => aside _ m (by decide)
  refine ⟨fun p => ?_, by rw [glink], by rw [glink], by rw [glink], by rw [control],
    Or.inr ⟨by rw [arbiter], by rw [glink]⟩⟩
  rw [State.recordOf, State.recordOf, control]
  exact records p

/-- An event that leaves the records too. -/
theorem Moved.of_frame {l : List Part} {s t : State} (frame : OnlyChanges l s t)
    (aside : ∀ a ∈ l, a ∉ [Part.ports, .arbiter, .glink, .control]) : Moved s t :=
  .of_records (fun p => by rw [port_congr (frame .ports fun m => aside _ m (by decide))]; exact .refl) frame
    fun a m mem => aside a m (List.mem_cons_of_mem _ mem)

/-- An event of one record. -/
theorem Moved.of_port {l : List Part} {s t : State} {p : Port} {r : PortRec}
    (port : ∀ q, t.port q = if q = p then r else s.port q)
    (moves : PortRec.Moves (s.recordOf p) (s.control.policy.tHOLD0, r)) (frame : OnlyChanges l s t)
    (aside : ∀ a ∈ l, a ∉ [Part.arbiter, .glink, .control]) : Moved s t := by
  refine .of_records (fun q => ?_) frame aside
  rw [port]
  split
  · next same => subst same; exact moves
  · exact .refl

theorem moved_setPort {p : Port} {r : PortRec} {s : State}
    (moves : PortRec.Moves (s.recordOf p) (s.control.policy.tHOLD0, r)) : Moved s (s.setPort p r) :=
  .of_port (fun q => port_setPort s p q r) moves (frame_setPort p r s) (by decide)

theorem moved_modPort {p : Port} {f : PortRec → PortRec} {s : State}
    (moves : PortRec.Moves (s.recordOf p) (s.control.policy.tHOLD0, f (s.port p))) : Moved s (s.modPort p f) :=
  moved_setPort moves

theorem moved_mapPorts {f : Port → PortRec → PortRec} {s : State}
    (moves : ∀ h p (r : PortRec), PortRec.Moves (h, r) (h, f p r)) : Moved s (s.mapPorts f) :=
  .of_records (fun p => by rw [port_mapPorts]; exact moves _ p _) (frame_mapPorts f s) (by decide)

/-- A change of the Mode Unit that leaves tHOLD0 and the load. -/
theorem moved_set_control (s : State) (x : ModeUnit) (policy : x.policy = s.control.policy)
    (loading : x.loading = s.control.loading) : Moved s { s with control := x } :=
  ⟨fun p => by simp only [State.recordOf, policy]; exact .refl, rfl, rfl, rfl, loading, Or.inr ⟨rfl, rfl⟩⟩

/-- A change of the link's receiver and counts. -/
theorem moved_set_glink (s : State) (x : GuardLink) (sending : x.sending = s.glink.sending)
    (waiting : x.waiting = s.glink.waiting) (outstanding : x.outstanding = s.glink.outstanding)
    (state : x.state = s.glink.state) : Moved s { s with glink := x } :=
  ⟨fun _ => .refl, sending, waiting, outstanding, rfl, Or.inr ⟨rfl, state⟩⟩

/-! ### Chains -/

theorem entryCounts_plain {h : Nat} {g : GuardState} : EntryCounts h g 0 0 :=
  ⟨fun _ => rfl, fun _ => rfl, Nat.zero_le _⟩

theorem entryCounts_throttle (h n : Nat) : EntryCounts h .throttle n 0 :=
  ⟨fun away => absurd rfl away, fun _ => rfl, Nat.zero_le _⟩

/-- No strike passes 6, so no hold passes 32 times tHOLD0 (R95). -/
theorem holdFor_bound (h n : Nat) : holdFor h (strikeUp n) ≤ 32 * h := by
  have strike : strikeUp n - 1 ≤ 5 := by
    have bound : strikeUp n ≤ 6 := Nat.min_le_left _ _
    omega
  calc h * 2 ^ (strikeUp n - 1) ≤ h * 2 ^ 5 := Nat.mul_le_mul_left h (Nat.pow_le_pow_right (by decide) strike)
    _ = 32 * h := Nat.mul_comm h 32

theorem struck_moves (h : Nat) (r : PortRec) : PortRec.Moves (h, r) (h, r.struck h) :=
  (Relation.ReflTransGen.single (.strike (strikeUp r.strike) (Or.inl (Nat.min_le_left _ _)))).tail
    (.enter ⟨fun _ => rfl, fun away => absurd rfl away, holdFor_bound h r.strike⟩)

theorem gone_moves (h : Nat) (r : PortRec) : PortRec.Moves (h, r) (h, r.gone) := by
  unfold PortRec.gone
  split
  · exact .single (.enter entryCounts_plain)
  · split
    · exact .single (.enter entryCounts_plain)
    · exact .refl

theorem meterReset_moves (h bmax : Nat) (r : PortRec) : PortRec.Moves (h, r) (h, meterReset bmax r) :=
  (Relation.ReflTransGen.single (.meter r.lastF 0 bmax false .idle)).tail (.throttle 0 false (Or.inl (Nat.zero_le _)))

theorem lowered_moves (h : Nat) (g : GuardState) (bmax : Nat) (r : PortRec) :
    PortRec.Moves (h, r) (h, r.lowered g bmax) := by
  have down : PortRec.Moves (h, r) (h, { r with linkUp := false }) := .single (.table r.role false)
  unfold PortRec.lowered
  refine Relation.ReflTransGen.trans ?_ (meterReset_moves h bmax _)
  split
  · exact down
  · exact down.tail (.enter entryCounts_plain)

theorem ruled_moves (h : Nat) (new : Role) (r : PortRec) : PortRec.Moves (h, r) (h, r.ruled new) := by
  have role : PortRec.Moves (h, r) (h, { r with role := new }) := .single (.table new r.linkUp)
  cases rule : ruleMove new r with
  | none => rw [ruled_none rule]; exact role
  | some g => rw [ruled_some rule]; exact role.tail (.enter entryCounts_plain)

theorem meterRole_moves (h : Nat) (q : Policy) (old new : Role) (r : PortRec) :
    PortRec.Moves (h, r) (h, meterRole q old new r) := by
  unfold meterRole
  dsimp only
  split
  · exact (Relation.ReflTransGen.single (.meter r.lastF 0 _ false .idle)).tail
      (.throttle 0 r.throttleDue (Or.inl (Nat.zero_le _)))
  · split
    · exact .single (.meter r.lastF 0 _ false r.mark)
    · exact .single (.meter r.lastF r.avgE _ r.trip r.mark)

theorem reseated_moves (h : Nat) (q : Policy) (old new : Role) (r : PortRec) :
    PortRec.Moves (h, r) (h, r.reseated q old new) :=
  (Relation.ReflTransGen.single (.override .noOverride)).trans (meterRole_moves h q old new _)

theorem clampRec_moves (old new : Policy) (r : PortRec) :
    PortRec.Moves (old.tHOLD0, r) (new.tHOLD0, clampRec old new r) :=
  (Relation.ReflTransGen.single (.policy new.tHOLD0)).tail (.meter r.lastF r.avgE _ r.trip r.mark)

/-- The counts of an interval event (R92, R96, R101). -/
theorem tickRec_moves (h n : Nat) (r : PortRec) : PortRec.Moves (h, r) (h, tickRec n r) := by
  unfold tickRec
  split
  · split
    · exact .single (.hold _ _ (Nat.sub_le _ _))
    · exact .refl
  · split
    · exact .single (.throttle _ _ (Or.inl (Nat.sub_le _ _)))
    · exact .refl
  · next forward => exact .single (.decay _ _ (Or.inr forward))
  all_goals exact .refl

/-! ### The Port Guard -/

theorem moved_moveGuard {p : Port} {g : GuardState} {n k : Nat} (c : StateCause) {s : State}
    (counts : EntryCounts s.control.policy.tHOLD0 g n k) : Moved s (moveGuard p g n k c s) :=
  .of_port (fun q => moveGuard_port p q g n k c s) (.single (.enter counts)) (frame_moveGuard p g n k c s) (by decide)

theorem moved_goPlain (p : Port) (g : GuardState) (c : StateCause) (s : State) : Moved s (goPlain p g c s) :=
  moved_moveGuard c entryCounts_plain

theorem moved_goThrottle (p : Port) (c : StateCause) (s : State) : Moved s (goThrottle p c s) :=
  moved_moveGuard c (entryCounts_throttle _ _)

theorem moved_listenZero (p : Port) (s : State) : Moved s (s.modPort p fun r => { r with listen := 0 }) :=
  moved_modPort (.single (.listen 0 (Or.inl (Nat.zero_le _))))

theorem moved_evidenceEvent (p : Port) (s : State) : Moved s (evidenceEvent p s) := by
  unfold evidenceEvent
  split
  · exact moved_listenZero p s
  · exact moved_goPlain ..
  all_goals exact .refl s

/-- An event that gives some ports evidence-gone and leaves the arbiter, the link and the Mode Unit. -/
theorem GoneAtMost.moved {l : List Part} {s t : State} (most : GoneAtMost s t) (frame : OnlyChanges l s t)
    (aside : ∀ a ∈ l, a ∉ [Part.arbiter, .glink, .control]) : Moved s t := by
  refine .of_records (fun p => ?_) frame aside
  rcases most p with same | gone
  · rw [same]; exact .refl
  · rw [gone]; exact gone_moves _ _

theorem moved_evidenceGone (p : Port) (s : State) : Moved s (evidenceGone p s) :=
  .of_port (fun q => evidenceGone_port p q s) (gone_moves _ _) (frame_evidenceGone p s) (by decide)

theorem moved_tripPassed (p : Port) (s : State) : Moved s (tripPassed p s) := by
  unfold tripPassed
  split
  · exact moved_goThrottle ..
  · exact moved_goThrottle ..
  · exact moved_listenZero p s
  · next throttled => exact moved_modPort (.single (.throttle _ false (Or.inr throttled)))
  all_goals exact .refl s

theorem moved_readLet (s : State) : Moved s (readLet s) := .of_frame (frame_readLet s) (by decide)

theorem moved_settleSweep (s : State) : Moved s (settleSweep s) :=
  (goneAtMost_settleSweep s).moved (frame_settleSweep s) (by decide)

theorem moved_withdraw (c : LetEntry → Bool) (s : State) : Moved s (withdraw c s) :=
  (goneAtMost_withdraw c s).moved (frame_withdraw c s) (by decide)

theorem moved_listenJudge {p : Port} (clean : Bool) {s : State} (listens : (s.port p).guard = .listen) :
    Moved s (listenJudge p clean s) := by
  unfold listenJudge
  split
  · have counted : Moved s (s.modPort p fun r => { r with listen := min Config.cleanMax ((s.port p).listen + 1) }) :=
      moved_modPort (.single (.listen _ (Or.inr ⟨listens, Nat.min_le_left _ _⟩)))
    refine .ite (counted.trans ?_) counted
    exact .ite (moved_goThrottle ..) (moved_goPlain ..)
  · exact moved_listenZero p s

theorem moved_listenBook (p : Port) (quiet : Bool) (s : State) : Moved s (listenBook p quiet s) := by
  unfold listenBook
  split
  · next listens =>
    exact ((moved_readLet s).trans (moved_listenJudge _ (by rw [readLet_port]; exact listens))).trans
      (moved_settleSweep _)
  · exact .refl s

theorem moved_uplinkBook (s : State) : Moved s (uplinkBook s) :=
  .ite (.foldl (fun t p => .ite (moved_listenBook p true t) (.refl t)) _ s) (.refl s)

theorem moved_leaveThrottle (p : Port) (s : State) : Moved s (leaveThrottle p s) :=
  ((moved_readLet s).trans (.ite (moved_goPlain ..) (moved_goPlain ..))).trans (moved_settleSweep _)

theorem moved_clearEvent (p : Port) (s : State) : Moved s (clearEvent p s) := .ite (moved_leaveThrottle p s) (.refl s)

theorem moved_throttleEnds (p : Port) (s : State) : Moved s (throttleEnds p s) := by
  have judged : Moved s (s.modPort p fun r => { r with throttleDue := false }) :=
    moved_modPort (.single (.throttle (s.port p).throttleHold false (Or.inl (Nat.le_refl _))))
  exact .ite (judged.trans (moved_leaveThrottle ..)) judged

theorem moved_holdEnds (p : Port) (s : State) : Moved s (holdEnds p s) := by
  have judged : Moved s (s.modPort p fun r => { r with holdDue := false }) :=
    moved_modPort (.single (.hold (s.port p).hold false (Nat.le_refl _)))
  refine .ite (judged.trans (((moved_readLet _).trans ?_).trans (moved_settleSweep _))) judged
  exact .ite (.refl _) (moved_goPlain ..)

theorem moved_decayEnds (p : Port) (s : State) : Moved s (decayEnds p s) := by
  refine .ite (moved_modPort ?_) (.refl s)
  exact (Relation.ReflTransGen.single (.strike _ (Or.inr (Nat.sub_le _ 1)))).tail
    (.decay 0 false (Or.inl (Nat.zero_le _)))

theorem moved_portEnds (p : Port) (s : State) : Moved s (portEnds p s) :=
  ((moved_throttleEnds p s).trans (moved_holdEnds p _)).trans (moved_decayEnds p _)

theorem moved_lowerPortsEnd (p : Port) (s : State) : Moved s (lowerPortsEnd p s) :=
  .foldl (fun t q => moved_portEnds q t) _ s

/-! ### The Evidence Unit -/

theorem moved_writeLet (i : Fin 16) (e : LetEntry) (s : State) : Moved s (writeLet i e s) :=
  .of_frame (frame_writeLet i e s) (by decide)

theorem moved_confirmEffects (e : LetEntry) (first : Bool) (s : State) : Moved s (confirmEffects e first s) := by
  refine .of_records (fun q => ?_) (frame_confirmEffects e first s) (by decide)
  rw [confirmEffects_port]
  split
  · exact struck_moves _ _
  · exact .refl

theorem moved_confirmSlot (i : Fin 16) (s : State) : Moved s (confirmSlot i s) := by
  unfold confirmSlot
  split
  · exact .refl s
  · exact (moved_writeLet ..).trans (moved_confirmEffects ..)

theorem moved_confirmCheck (i : Fin 16) (s : State) : Moved s (confirmCheck i s) := by
  unfold confirmCheck
  split
  · exact .refl s
  · exact .ite (moved_confirmSlot i s) (.refl s)

theorem moved_createIn (i : Fin 16) (x y : Port) (evicted : Option Port) (s : State) :
    Moved s (createIn i x y evicted s) := by
  have gone (t : State) : Moved t (evictedGone evicted t) := by
    unfold evictedGone
    split
    · exact .ite (.refl t) (moved_evidenceGone _ t)
    · exact .refl t
  have given (v : Option Port) (t : State) : Moved t (newVictimEvidence v t) := by
    unfold newVictimEvidence
    split
    · exact moved_evidenceEvent _ t
    · exact .refl t
  exact (((moved_writeLet ..).trans (gone _)).trans (given _ _)).trans (moved_confirmCheck ..)

theorem moved_createEntry (x y : Port) (s : State) : Moved s (createEntry x y s) := by
  unfold createEntry
  split
  · exact moved_createIn ..
  · split
    · exact .refl s
    · exact (Moved.of_frame (frame_set_evidence s _) (by decide)).trans (moved_createIn ..)

theorem moved_creditSlot (i : Fin 16) (s : State) : Moved s (creditSlot i s) := by
  unfold creditSlot
  split
  · exact .refl s
  · exact (moved_writeLet ..).trans (moved_confirmCheck ..)

theorem moved_sighting (x y : Port) (s : State) : Moved s (sighting x y s) := by
  unfold sighting
  refine ((moved_readLet s).trans ?_).trans (moved_settleSweep _)
  split
  · exact moved_creditSlot ..
  · exact moved_createEntry ..

theorem moved_interlock (p : Port) (s : State) : Moved s (interlock p s) := by
  refine .foldl (fun t i => ?_) _ s
  unfold interlockSlot
  split
  · exact .refl t
  · exact .ite (moved_confirmSlot i t) (.refl t)

/-! ### Modes and the meter -/

theorem moved_report (b : ReportBody) (s : State) : Moved s (report b s) := .of_frame (frame_report b s) (by decide)

theorem moved_setMode (m : Mode) (c : ModeCause) (s : State) : Moved s (setMode m c s) :=
  (moved_set_control s { s.control with mode := m, hostLost := 0, hostLostDue := false } rfl rfl).trans
    (moved_report _ _)

theorem moved_wake (k : WakeKind) (p : Port) (s : State) : Moved s (wake k p s) := .ite (moved_setMode ..) (.refl s)

theorem moved_tripEvent (p : Port) (s : State) : Moved s (tripEvent p s) := by
  have locked := ((moved_wake .trip p s).trans (moved_readLet _)).trans (moved_interlock p _)
  exact (locked.trans (.ite (.refl _) (moved_tripPassed p _))).trans (moved_settleSweep _)

theorem moved_digestAtMeter (p : Port) (stamp : Byte) (n : Nat) (s : State) : Moved s (digestAtMeter p stamp n s) := by
  have late : Moved s (lateDigest s) := .of_frame (frame_lateDigest s) (by decide)
  have updated : Moved s (s.setPort p (meterUpdate (s.rowAt p) n (s.port p))) :=
    moved_setPort (.single (.meter _ _ _ _ _))
  unfold digestAtMeter
  split
  · exact .refl s
  · refine .ite late (.ite late (.ite late ?_))
    refine (updated.trans ?_).trans (.of_frame (frame_watchDigest _ _ _) (by decide))
    exact .ite (moved_tripEvent p _) (.ite (moved_clearEvent p _) (.refl _))

end Sys2Proof.Machine
end

section
/-! SUPPORT. The records and the command channel through the events of the Probe Unit, the Port Table, the Mode Unit
and the Management Line. -/

namespace Sys2Proof.Machine

/-! ### Probes and rounds -/

theorem moved_readOpt (s : State) : Moved s (readOpt s) := .of_frame (frame_readOpt s) (by decide)

theorem moved_catchAtProbe (y x : PortField) (r : Round) (d : Identity) (s : State) :
    Moved s (catchAtProbe y x r d s) := by
  have counted (t : State) (u : ProbeUnit) : Moved t { t with probe := u } :=
    .of_frame (frame_set_probe t u) (by decide)
  have found (i : Fin 32) (y : Port) (t : State) : Moved t (catchFound i y t) := by
    unfold catchFound
    split
    · exact .refl t
    · have woken := moved_wake .caught y t
      exact .ite woken ((woken.trans (.of_frame (frame_writeOpt _ _ _) (by decide))).trans (moved_sighting ..))
  unfold catchAtProbe
  split
  · exact counted s _
  · split
    · unfold catchOn
      split
      · dsimp only
        split
        · exact (moved_readOpt s).trans (counted _ _)
        · exact (moved_readOpt s).trans (found _ _ _)
      · exact counted s _
    · exact counted s _

theorem moved_expireSlot (i : Fin 32) (s : State) : Moved s (expireSlot i s) := by
  unfold expireSlot
  split
  · exact .refl s
  · exact ((moved_withdraw ..).trans (.ite (moved_listenBook ..) (.refl _))).trans
      (.of_frame (frame_clearOpt i _) (by decide))

theorem moved_expireAll (l : List (Fin 32)) (s : State) : Moved s (l.foldl (fun u i => expireSlot i u) s) :=
  .foldl (fun t i => moved_expireSlot i t) l s

theorem moved_expireDue (s : State) : Moved s (expireDue s) := moved_expireAll _ s

theorem moved_roundSteps (s : State) : Moved s (roundSteps s) := by
  have opened : Moved s (roundOpened s) := .of_frame (frame_set_round s _ _) (by decide)
  have erased (c : OptEntry → Bool) (t : State) : Moved t (eraseOpt c t) := .of_frame (frame_eraseOpt c t) (by decide)
  rw [roundSteps_eq]
  exact ((((opened.trans (moved_readOpt _)).trans (erased _ _)).trans (moved_expireAll _ _))).trans
    (.of_frame (frame_set_probe _ _) (by decide))

theorem moved_takeRound (s : State) : Moved s (takeRound s) :=
  .ite ((moved_roundSteps s).trans (moved_uplinkBook _)) (.refl s)

/-! ### Link events -/

theorem moved_set_order (s : State) (l : List Port) : Moved s { s with order := l } :=
  .of_frame (frame_set_order s l) (by decide)

theorem moved_linkUpEvent (p : Port) (s : State) : Moved s (linkUpEvent p s) := by
  have raised : Moved s (linkRaised p s) := by
    unfold linkRaised
    rw [← wake_eq_woken]
    exact ((moved_wake .linkUp p s).trans (moved_modPort (.single (.table _ true)))).trans (moved_set_order _ _)
  rw [linkUpEvent_eq]
  exact .ite (raised.trans (moved_goPlain ..)) raised

theorem moved_linkDownTo (g : GuardState) (c : StateCause) (p : Port) (s : State) : Moved s (linkDownTo g c p s) := by
  have down : Moved s (portDown g c p s) :=
    .of_port (fun q => portDown_port g c p q s) (lowered_moves _ g _ _) (frame_portDown g c p s) (by decide)
  rw [linkDownTo_eq]
  exact down.trans ((goneAtMost_portCleared p _).moved (frame_portCleared p _) (by decide))

theorem moved_linkReport (p : Port) (up : Bool) (s : State) : Moved s (linkReport p up s) :=
  .ite (.ite (moved_linkUpEvent p s) (moved_linkDownTo ..)) (.refl s)

/-- The absence of a port, once the arbiter has done its part (R130). -/
theorem moved_absence (p : Port) (s : State) : Moved (s.modPort p PortRec.absented) (absence p s) := by
  rw [absence_eq]
  exact .ite (moved_linkDownTo ..) (.ite (.refl _) (moved_goPlain ..))

/-! ### Role changes -/

theorem moved_roleStep1 (new : Role) (p : Port) (s : State) : Moved s (roleStep1 new p s) :=
  .of_port (fun q => roleStep1_port new p q s) (ruled_moves _ new _) (frame_roleStep1 new p s) (by decide)

theorem moved_roleStep2 (old new : Role) (p : Port) (s : State) : Moved s (roleStep2 old new p s) := by
  obtain ⟨w, frame, -, -, seated⟩ := roleStep2_eq old new p s
  rw [seated]
  exact ((moved_withdraw _ s).trans (.of_frame frame (by decide))).trans (moved_modPort (reseated_moves _ _ old new _))

theorem moved_roleChange (table : Port → Role) (s : State) : Moved s (roleChange table s) :=
  (Moved.foldl (fun t (x : Port × Role) => moved_roleStep1 (table x.1) x.1 t) _ s).trans
    (.foldl (fun t (x : Port × Role) => moved_roleStep2 x.2 (table x.1) x.1 t) _ _)

/-! ### Policy and mode -/

/-- A new policy brings its tHOLD0, to which the holds are clamped (R99). -/
theorem moved_applyPolicy (q : Policy) (s : State) : Moved s (applyPolicy q s) where
  records p := by
    rw [State.recordOf, State.recordOf, applyPolicy_port]
    exact clampRec_moves s.control.policy q (s.port p)
  sending := congrArg GuardLink.sending (frame_applyPolicy q s .glink (by decide))
  waiting := congrArg GuardLink.waiting (frame_applyPolicy q s .glink (by decide))
  outstanding := congrArg GuardLink.outstanding (frame_applyPolicy q s .glink (by decide))
  loading := by rw [applyPolicy_control]
  run := Or.inr ⟨congrArg Arbiter.faultRun (frame_applyPolicy q s .arbiter (by decide)),
    congrArg GuardLink.state (frame_applyPolicy q s .glink (by decide))⟩

theorem moved_enterAutonomous (c : ModeCause) (s : State) : Moved s (enterAutonomous c s) :=
  (((moved_setMode .autonomous c s).trans (moved_mapPorts fun _ _ _ => .single (.override .noOverride))).trans
    (moved_applyPolicy _ _)).trans (moved_roleChange _ _)

theorem moved_hostLostEnds (s : State) : Moved s (hostLostEnds s) := .ite (moved_enterAutonomous _ s) (.refl s)

theorem moved_booted (s : State) : Moved s (booted s) := .ite (moved_setMode ..) (moved_enterAutonomous ..)

/-- What is still due of the last interval event, but for a STROBE in the transmitter. -/
def intervalSettled (s : State) : State :=
  hostLostEnds (allPorts.foldl (fun u p => portEnds p u) (takeRound (expireDue s)))

theorem settleInterval_eq (s : State) : settleInterval s = strobesSent (intervalSettled s) := rfl

theorem moved_intervalSettled (s : State) : Moved s (intervalSettled s) :=
  (((moved_expireDue s).trans (moved_takeRound _)).trans (.foldl (fun t p => moved_portEnds p t) allPorts _)).trans
    (moved_hostLostEnds _)

theorem moved_hostTick (s : State) : Moved s (hostTick s) := .ite (moved_set_control s _ rfl rfl) (.refl s)

theorem moved_paceTick (s : State) : Moved s (paceTick s) :=
  .ite ⟨fun _ => .refl, rfl, rfl, rfl, rfl, Or.inr ⟨rfl, rfl⟩⟩ (.refl s)

/-- The meter's part of an interval event, before the STROBE. -/
theorem moved_beforeStrobe (s : State) : Moved s (meterInterval (clockTick s)) := by
  have ticked : Moved s (clockTick s) := .of_frame (frame_clockTick s) (by decide)
  have marked : Moved (clockTick s)
      ((clockTick s).mapPorts fun _ r => { r with mark := if r.metered then .awaited else .idle }) :=
    moved_mapPorts fun _ _ r => .single (.meter r.lastF r.avgE r.creditB r.trip _)
  exact (ticked.trans marked).trans (.of_frame (frame_set_meter _ _) (by decide))

/-- The pacing, the scan and the counts of an interval event, after the STROBE. -/
theorem moved_afterStrobe (s : State) :
    Moved (handTx (.strobe ((s.clock.stamp + 1).setWidth 8)) (meterInterval (clockTick s))) (intervalTick s) := by
  rw [intervalTick_eq]
  exact (((moved_paceTick _).trans (moved_readOpt _)).trans (moved_mapPorts fun _ _ r => tickRec_moves _ _ r)).trans
    (moved_hostTick _)

/-! ### The Guard Link -/

/-- A valid record, from its last bit to its block: the link is UP again, and the fault run 0 if it was not (R117). -/
theorem moved_recordDone (k : InboundKind) (f : PortField) (s : State) :
    Moved s (linkReturns f k (recordDone s)) := by
  refine (moved_set_glink s { s.glink with rx := .hunt } rfl rfl rfl rfl).trans (.ite ?_ (.refl _))
  exact (moved_report _ _).trans ⟨fun _ => .refl, rfl, rfl, rfl, rfl, Or.inl rfl⟩

theorem moved_inbound (k : InboundKind) (f : PortField) {act : State → State} (acts : ∀ t, Moved t (act t))
    (s : State) : Moved s (inbound k f act s) :=
  .ite (moved_set_glink s _ rfl rfl rfl rfl) ((moved_recordDone k f s).trans (acts _))

/-- A record with a port field, which may name no port. -/
theorem moved_portRecord (k : InboundKind) (f : PortField) {act : Port → State → State}
    (acts : ∀ p t, Moved t (act p t)) (s : State) :
    Moved s (inbound k f (fun t => match portOf f with | some p => act p t | none => badPort t) s) := by
  refine moved_inbound k f (fun t => ?_) s
  split
  · exact acts _ t
  · exact moved_set_glink t _ rfl rfl rfl rfl

/-! ### Requests -/

theorem moved_takeFrame (body : List Byte) (s : State) : Moved s (takeFrame body s) := by
  have ended := moved_hostLostEnds s
  exact ⟨ended.records, ended.sending, ended.waiting, ended.outstanding, ended.loading, ended.run⟩

theorem moved_clearCounts (s : State) : Moved s (clearCounts s) :=
  ⟨fun _ => .refl, rfl, rfl, rfl, rfl, Or.inr ⟨rfl, rfl⟩⟩

theorem moved_modeTo (m : Mode) (s : State) : Moved s (modeTo m s).state := by
  unfold modeTo
  split
  · exact .refl s
  · split
    · exact moved_enterAutonomous ..
    · exact moved_setMode ..
    · split
      · exact moved_setMode ..
      · exact .refl s
    · exact .refl s

theorem moved_lessonRefill (s : State) : Moved s (lessonRefill s) :=
  moved_mapPorts fun _ _ r => by
    split
    · exact .refl
    · exact .single (.meter r.lastF r.avgE _ r.trip r.mark)

theorem moved_setOverride (p : Port) (o : Override) (s : State) : Moved s (setOverride p o s) :=
  moved_modPort (.single (.override o))

/-- What an owning block answers: six of them touch records, counts of the link or the Mode Unit. -/
theorem moved_act (k : RequestKind) (fields : List Byte) (s : State) : Moved s (k.act fields s).state := by
  have frame := frame_requestAct k fields s
  cases k with
  | stat =>
    show Moved s (doStat fields s).state
    unfold doStat
    split
    · exact .refl s
    · split
      · exact .refl s
      · split
        · exact moved_clearCounts s
        · exact .refl s
    · exact .refl s
  | mode =>
    show Moved s (doMode fields s).state
    unfold doMode
    split
    · split
      · exact moved_modeTo _ s
      · exact .refl s
    · exact .refl s
  | setp =>
    show Moved s (doSetp fields s).state
    unfold doSetp
    split
    · exact moved_applyPolicy _ s
    · exact .refl s
  | roles =>
    show Moved s (doRoles fields s).state
    unfold doRoles rolesCodes
    split
    · exact .refl s
    · split
      · exact .refl s
      · split
        · split
          · exact .refl s
          · exact moved_roleChange _ s
        · exact .refl s
  | ovrd =>
    show Moved s (doOvrd fields s).state
    unfold doOvrd ovrdPort
    split
    · split
      · split
        · exact .refl s
        · exact moved_setOverride _ _ s
      · exact .refl s
    · exact .refl s
  | lesson =>
    show Moved s (doLesson fields s).state
    unfold doLesson
    split
    · exact moved_lessonRefill s
    · exact .refl s
  | _ => exact .of_frame frame (by decide)

theorem moved_ifServed (k : RequestKind) (fields : List Byte) (s : State) :
    Moved s (ifServed k (k.act fields) s).state := by
  unfold ifServed
  split
  · exact moved_act k fields s
  · exact .refl s

theorem moved_sendReply (kind : Byte) {a : Answer} {s : State} (h : Moved s a.state) : Moved s (sendReply kind a) :=
  h.trans (.of_frame (frame_sendReply kind a) (by decide))

/-- A request frame, carried out or refused as busy. -/
theorem moved_request (kind : Byte) (fields : List Byte) {act : State → Answer} (acts : ∀ t, Moved t (act t).state)
    (s : State) : Moved s (request kind fields act s) := by
  have busy : Moved s (frameBusy kind s) := .of_frame (frame_frameBusy kind s) (by decide)
  exact .ite (.ite (moved_sendReply kind ((moved_takeFrame _ s).trans (acts _))) busy) (.refl s)

theorem moved_serve (body : List Byte) (s : State) : Moved s (serve body s) := by
  unfold serve
  split
  · exact .refl s
  · next kind fields =>
    have taken := moved_takeFrame (kind :: fields) s
    refine moved_sendReply kind ?_
    unfold answerTo
    split
    · exact taken.trans (moved_ifServed ..)
    · exact taken

theorem moved_sampleKey (level : Bool) (s : State) : Moved s (sampleKey level s) :=
  .of_frame (frame_sampleKey level s) (by decide)

theorem moved_keyRead (c : Instr) (s : State) : Moved s (keyRead c s) := by
  unfold keyRead
  split
  · exact moved_sampleKey _ s
  · exact moved_sampleKey _ s
  · exact moved_sampleKey _ s
  · exact .refl s

/-- A character, with the judgement of the frame it may complete. -/
theorem moved_character (b : Byte) (stop : CharacterEnd) (s : State) :
    Moved s (judgeComplete (receiveChar b stop.framingFault (sampleKey stop.key s))) := by
  have received : Moved s (receiveChar b stop.framingFault (sampleKey stop.key s)) :=
    (moved_sampleKey _ s).trans (.of_frame (frame_receiveChar _ _ _) (by decide))
  have judged (f : Frame) (t : State) : Moved t (judgeFrame f t) :=
    .ite (.of_frame (frame_frameCheckFails t) (by decide))
      (.ite (moved_serve _ t) (.of_frame (frame_frameBusy _ t) (by decide)))
  unfold judgeComplete
  split
  · exact received
  · exact (received.trans (.of_frame (frame_set_mgmt _ _) (by decide))).trans (judged _ _)

/-! ### Commands -/

/-- The commands that the records and the channel go through by moves alone: all but the resets, the load, the interval
event, ACK and the command channel's own steps. -/
def moving (c : Instr) : Bool :=
  match c with
  | .powerReset _ | .pinReset _ | .replyEnd _ | .settingsStoreLoad | .intervalEvent | .ack _ _ _ | .ackTimeout
  | .setport | .inject | .commandLastBit | .strobeLastBit => false
  | _ => true

theorem moved_requested {c : Instr} {kind : Byte} {fields : List Byte} (request : requestOf c = some (kind, fields))
    {s t : State} (run : exec c s = .next t) : Moved s t := by
  obtain ⟨k, run'⟩ := exec_request request s
  cases run.symm.trans run'
  exact (moved_keyRead c s).trans (moved_request _ _ (moved_ifServed k _) _)

/-- A command that leaves the records, the channel and the Mode Unit. -/
theorem moved_aside {c : Instr} {s t : State} (aside : ∀ a ∈ touches c, a ∉ [Part.ports, .arbiter, .glink, .control])
    (run : exec c s = .next t) : Moved s t := by
  obtain ⟨u, run', frame⟩ := exec_frame c s
  cases run.symm.trans run'
  exact .of_frame frame aside

theorem exec_moved {c : Instr} (moves : moving c = true) {s t : State} (run : exec c s = .next t) : Moved s t := by
  cases requested : requestOf c with
  | some request => exact moved_requested requested run
  | none =>
    have neither := And.intro moves requested
    cases c
    case startPacingAllowance => cases run; exact .ite (moved_paceTick s) (.refl s)
    case roundStart => cases run; exact .ite ((moved_expireDue s).trans (moved_takeRound _)) (.refl s)
    case probeExpiry =>
      cases run
      split
      · exact .refl s
      · exact moved_expireSlot _ s
    case throttleHoldExpiry p =>
      cases run
      exact .ite ((moved_lowerPortsEnd p s).trans (moved_throttleEnds p _)) (.refl s)
    case holdExpiry p =>
      cases run
      exact .ite ((moved_lowerPortsEnd p s).trans (moved_holdEnds p _)) (.refl s)
    case strikeDecay p => cases run; exact moved_decayEnds p s
    case hostLost => cases run; exact moved_hostLostEnds s
    case digest f stamp n =>
      cases run
      exact moved_portRecord .digest f (fun p t => moved_digestAtMeter p stamp n.toNat t) s
    case catchRecord y x r d => cases run; exact moved_inbound _ _ (moved_catchAtProbe y x r d) s
    case link f up => cases run; exact moved_portRecord .link f (fun p t => moved_linkReport p up t) s
    case framingError bits => cases run; exact .ite (moved_set_glink s _ rfl rfl rfl rfl) (.refl s)
    case unknownRecord w => cases run; exact .ite (moved_set_glink s _ rfl rfl rfl rfl) (.refl s)
    case character b stop => cases run; exact moved_character b stop s
    case unknown kind fields =>
      cases run
      exact .ite (.refl s) (moved_request _ _ (act := fun t => refuse .unknown t) .refl s)
    case gapTimeout => exact moved_aside (by decide) run
    case checkFail body check => exact moved_aside (by simp [touches]) run
    case rejectBusy kind fields => exact moved_aside (by simp [touches]) run
    case writeCompletion took => exact moved_aside (by simp [touches]) run
    case keyFall => exact moved_aside (by decide) run
    all_goals simp [moving, requestOf] at neither

end Sys2Proof.Machine
end

section
/-! SUPPORT. The counts of a guard record belong to its guard state and keep their ranges (R77). -/

namespace Sys2Proof.Machine

/-! ### One record -/

/-- The counts of one record fit its guard state and the tHOLD0 in force (R77, R95). -/
structure PortRec.CountsFit (tHOLD0 : Nat) (r : PortRec) : Prop where
  strike : r.strike ≤ 6
  hold : r.hold ≤ 32 * tHOLD0
  holdState : r.guard ≠ .blocked → r.hold = 0
  listen : r.listen ≤ 7
  listenState : r.guard ≠ .listen → r.listen = 0
  throttleState : r.guard ≠ .throttle → r.throttleHold = 0
  decayState : r.guard ≠ .forward → r.decay = 0

theorem countsFit_iff {s : State} : CountsFit s ↔ ∀ p, (s.port p).CountsFit s.control.policy.tHOLD0 :=
  ⟨fun h p => ⟨h.strike p, h.hold p, h.holdState p, h.listen p, h.listenState p, h.throttleState p, h.decayState p⟩,
    fun h => ⟨fun p => (h p).strike, fun p => (h p).hold, fun p => (h p).holdState, fun p => (h p).listen,
      fun p => (h p).listenState, fun p => (h p).throttleState, fun p => (h p).decayState⟩⟩

/-- The guard state and the counts of a record are the same. -/
structure PortRec.CountsSame (r u : PortRec) : Prop extends r.GuardSame u where
  strike : u.strike = r.strike
  throttleHold : u.throttleHold = r.throttleHold

theorem PortRec.CountsSame.countsFit {h : Nat} {r u : PortRec} (same : r.CountsSame u) (fits : r.CountsFit h) :
    u.CountsFit h := by
  obtain ⟨⟨guard, hold, listen, decay⟩, strike, throttleHold⟩ := same
  constructor <;> simp only [guard, hold, listen, decay, strike, throttleHold]
  exacts [fits.strike, fits.hold, fits.holdState, fits.listen, fits.listenState, fits.throttleState, fits.decayState]

theorem deriveWanted_countsSame (r : PortRec) : r.CountsSame r.deriveWanted := by
  obtain ⟨hold, listen, decay, throttleHold⟩ := deriveWanted_counts r
  exact ⟨⟨deriveWanted_guard r, hold, listen, decay⟩, deriveWanted_strike r, throttleHold⟩

theorem absented_countsSame (r : PortRec) : r.CountsSame r.absented := by
  obtain ⟨⟨guard, hold, listen, decay⟩, strike, throttleHold⟩ := deriveWanted_countsSame
    { r with confirmed := none, inFlight := none, present := false, pendingFlag := false, override := .noOverride }
  exact ⟨⟨guard, hold, listen, decay⟩, strike, throttleHold⟩

/-- A record that enters a guard state leaves the counts of every other state at 0. -/
theorem enter_countsFit {h n k : Nat} {g : GuardState} {r : PortRec} (counts : EntryCounts h g n k)
    (fits : r.CountsFit h) : (r.enter g n k).CountsFit h := by
  obtain ⟨guard, listen, throttle, hold, decay, strike, -⟩ := enter_spec r g n k
  refine ⟨strike ▸ fits.strike, hold.le.trans counts.bound, fun away => ?_, listen ▸ Nat.zero_le _, fun _ => listen,
    fun away => ?_, fun _ => decay⟩
  · rw [hold]; exact counts.hold (guard ▸ away)
  · rw [throttle]; exact counts.throttle (guard ▸ away)

/-- A count of another state stays 0 when it does not rise. -/
theorem count_stays {g own : GuardState} {old new : Nat} (fits : g ≠ own → old = 0) (low : new ≤ old ∨ g = own)
    (away : g ≠ own) : new = 0 := by
  rcases low with low | is
  · exact Nat.le_zero.mp (fits away ▸ low)
  · exact absurd is away

theorem move_countsFit {a b : Nat × PortRec} (move : PortRec.Move a b) (fits : a.2.CountsFit a.1) :
    b.2.CountsFit b.1 := by
  cases move with
  | enter counts => exact enter_countsFit counts fits
  | strike n bound => exact { fits with strike := bound.elim id fun low => low.trans fits.strike }
  | listen n own =>
    exact { fits with
      listen := own.elim (fun low => low.trans fits.listen) And.right
      listenState := count_stays fits.listenState (own.imp_right And.left) }
  | throttle n due own => exact { fits with throttleState := count_stays fits.throttleState own }
  | hold n due bound =>
    exact { fits with
      hold := bound.trans fits.hold
      holdState := count_stays fits.holdState (Or.inl bound) }
  | decay n due own => exact { fits with decayState := count_stays fits.decayState own }
  | table role up => exact { fits with }
  | meter f e b trip mark => exact { fits with }
  | override o =>
    exact (deriveWanted_countsSame _).countsFit { fits with }
  | @policy h r new =>
    have low : (if new < h then min r.hold (32 * new) else r.hold) ≤ r.hold := by
      split
      · exact Nat.min_le_left _ _
      · exact Nat.le_refl _
    have bound : (if new < h then min r.hold (32 * new) else r.hold) ≤ 32 * new := by
      split
      · exact Nat.min_le_right _ _
      · next raised => exact fits.hold.trans (Nat.mul_le_mul_left 32 (Nat.not_lt.mp raised))
    exact { fits with hold := bound, holdState := count_stays fits.holdState (Or.inl low) }

theorem moves_countsFit {a b : Nat × PortRec} (moves : PortRec.Moves a b) (fits : a.2.CountsFit a.1) :
    b.2.CountsFit b.1 := by
  induction moves with
  | refl => exact fits
  | tail _ move ih => exact move_countsFit move ih

theorem startRecord_countsFit (h : Nat) (q : Policy) (role : Role) : (startRecord q role).CountsFit h :=
  ⟨Nat.zero_le _, Nat.zero_le _, fun _ => rfl, Nat.zero_le _, fun _ => rfl, fun _ => rfl, fun _ => rfl⟩

/-! ### The state -/

theorem CountsFit.of_moved {s t : State} (h : CountsFit s) (moved : Moved s t) : CountsFit t :=
  countsFit_iff.mpr fun p => moves_countsFit (moved.records p) (countsFit_iff.mp h p)

/-- An event of the arbiter and the link, which leaves guard states and counts. -/
theorem CountsFit.of_same {l : List Part} {s t : State} (h : CountsFit s) (same : ∀ p, (s.port p).CountsSame (t.port p))
    (frame : OnlyChanges l s t) (control : Part.control ∉ l) : CountsFit t := by
  have policy : t.control = s.control := frame .control control
  exact countsFit_iff.mpr fun p => policy ▸ (same p).countsFit (countsFit_iff.mp h p)

theorem CountsFit.of_frame {l : List Part} {s t : State} (h : CountsFit s) (frame : OnlyChanges l s t)
    (ports : Part.ports ∉ l) (control : Part.control ∉ l) : CountsFit t :=
  h.of_same (fun p => by rw [port_congr (frame .ports ports)]; exact ⟨.refl _, rfl, rfl⟩) frame control

theorem countsFit_modPort {p : Port} {f : PortRec → PortRec} {s : State} (h : CountsFit s)
    (same : (s.port p).CountsSame (f (s.port p))) : CountsFit (s.modPort p f) := by
  refine h.of_same (fun q => ?_) (frame_modPort p f s) (by decide)
  rw [port_modPort]
  split
  · next is => rw [is]; exact same
  · exact ⟨.refl _, rfl, rfl⟩

theorem countsFit_ite {c : Prop} [Decidable c] {s t : State} (h : CountsFit t) (k : CountsFit s) :
    CountsFit (if c then t else s) := by
  split
  · exact h
  · exact k

theorem countsFit_resetTo (c : ResetCause) (baud : Bool) (s : State) : CountsFit (resetTo c baud s) :=
  countsFit_iff.mpr fun p => by
    rw [show (resetTo c baud s).port p = _ from reset_port p]
    exact startRecord_countsFit _ _ _

theorem countsFit_loadDone (s : State) : CountsFit (loadDone s) :=
  countsFit_iff.mpr fun p => by rw [loadDone_port]; exact startRecord_countsFit _ _ _

theorem countsFit_intervalEvent {s : State} (h : CountsFit s) : CountsFit (intervalTick (settleInterval s)) := by
  have settled : CountsFit (settleInterval s) := by
    rw [settleInterval_eq]
    exact (h.of_moved (moved_intervalSettled s)).of_frame (frame_strobesSent _) (by decide) (by decide)
  exact ((settled.of_moved (moved_beforeStrobe _)).of_frame (frame_handTx _ _) (by decide) (by decide)).of_moved
    (moved_afterStrobe _)

theorem countsFit_sweepAnswered (p : Port) {s : State} (h : CountsFit s) : CountsFit (sweepAnswered p s) := by
  have left : CountsFit (leaveSweep p s) := h.of_moved (moved_set_control s _ rfl rfl)
  have started : CountsFit (startDone (leaveSweep p s)) := by
    rw [startDone_eq]
    exact ((left.of_moved (moved_booted _)).of_frame (frame_opened _) (by decide) (by decide)).of_moved
      (moved_roundSteps _)
  exact countsFit_ite (countsFit_ite started left) h

theorem countsFit_ackTaken (f : PortField) (ok up : Bool) {s : State} (h : CountsFit s) :
    CountsFit (ackTaken f ok up s) := by
  have seen : CountsFit (ackSeen s) := h.of_frame (frame_ackSeen s) (by decide) (by decide)
  have stray : CountsFit (strayAck (ackSeen s)) := seen.of_frame (frame_set_glink _ _) (by decide) (by decide)
  have ended : CountsFit (endCommand (ackSeen s)) := seen.of_frame (frame_endCommand _) (by decide) (by decide)
  have absented (p : Port) : CountsFit (absence p (endCommand (ackSeen s))) :=
    (countsFit_modPort ended (absented_countsSame _)).of_moved (moved_absence p _)
  have confirmed (p : Port) : CountsFit (setportConfirmed p (endCommand (ackSeen s))) :=
    countsFit_modPort ended ⟨⟨rfl, rfl, rfl, rfl⟩, rfl, rfl⟩
  unfold ackTaken
  split
  · exact stray
  · refine countsFit_ite ?_ stray
    unfold ackEnds
    split
    · exact countsFit_sweepAnswered _ (countsFit_ite ((confirmed _).of_moved (moved_linkReport ..)) (absented _))
    · refine CountsFit.of_moved (countsFit_ite ?_ ?_) (moved_linkReport ..)
      · exact ended.of_frame (frame_probeAcked _ _ _) (by decide) (by decide)
      · exact ended.of_frame (frame_probeEnded _ _ _) (by decide) (by decide)

theorem countsFit_commandTimeout (o : Outstanding) {s : State} (h : CountsFit s) : CountsFit (commandTimeout o s) := by
  have timed : CountsFit (timedOut s) := h.of_frame (frame_set_glink s _) (by decide) (by decide)
  have ended : CountsFit (commandEnded o s) := by
    unfold commandEnded
    split
    · refine timed.of_same (fun q => ?_) (frame_setportTimedOut _ _ _) (by decide)
      rw [setportTimedOut_port]
      split
      · next same => rw [same]; exact ⟨⟨rfl, rfl, rfl, rfl⟩, rfl, rfl⟩
      · exact ⟨.refl _, rfl, rfl⟩
    · exact timed.of_frame (frame_probeEnded _ _ _) (by decide) (by decide)
  have counted : CountsFit (countTimeout (commandEnded o s)) :=
    ended.of_frame (frame_countTimeout _) (by decide) (by decide)
  rw [commandTimeout_eq]
  refine countsFit_ite (counted.of_same (fun p => ?_) (frame_linkFails _ _ _) (by decide)) counted
  rw [linkFails_port]
  exact ⟨⟨rfl, rfl, rfl, rfl⟩, rfl, rfl⟩

theorem countsFit_grantSetport (p : Port) {s : State} (h : CountsFit s) : CountsFit (grantSetport p s) := by
  have marked : CountsFit (s.modPort p fun r => ({ r with inFlight := some (s.port p).wanted } : PortRec).recompute) :=
    countsFit_modPort h ⟨⟨rfl, rfl, rfl, rfl⟩, rfl, rfl⟩
  exact (marked.of_frame (frame_set_channel _ _ _) (by decide) (by decide)).of_frame (frame_handTx _ _) (by decide)
    (by decide)

theorem exec_countsFit (c : Instr) {s t : State} (h : CountsFit s) (run : exec c s = .next t) : CountsFit t := by
  cases moves : moving c with
  | true => exact h.of_moved (exec_moved moves run)
  | false =>
    have aside (ports : Part.ports ∉ touches c) (control : Part.control ∉ touches c) : CountsFit t := by
      obtain ⟨u, run', frame⟩ := exec_frame c s
      cases run.symm.trans run'
      exact h.of_frame frame ports control
    cases c
    case powerReset baud => cases run; exact countsFit_resetTo ..
    case pinReset baud => cases run; exact countsFit_resetTo ..
    case replyEnd baud =>
      cases run
      have replied : CountsFit (replyEnds s) := h.of_frame (frame_replyEnds s) (by decide) (by decide)
      exact countsFit_ite (countsFit_ite (countsFit_resetTo ..) replied) h
    case settingsStoreLoad => cases run; exact countsFit_ite (countsFit_loadDone s) h
    case intervalEvent => cases run; exact countsFit_ite h (countsFit_intervalEvent h)
    case ack f ok up =>
      cases run
      exact countsFit_ite (h.of_frame (frame_set_glink s _) (by decide) (by decide))
        (countsFit_ackTaken f ok up (h.of_moved (moved_recordDone ..)))
    case ackTimeout =>
      cases run
      split
      · exact countsFit_ite (countsFit_commandTimeout _ h) h
      · exact h
    case setport =>
      cases run
      split
      · exact countsFit_grantSetport _ h
      · exact h
      · exact h
    case inject => exact aside (by decide) (by decide)
    case commandLastBit => exact aside (by decide) (by decide)
    case strobeLastBit => exact aside (by decide) (by decide)
    all_goals cases moves

/-- Settles O58: a count rises only in its own state, an entry into a state sets every other count to 0, and a lower
tHOLD0 clamps the holds. -/
theorem countsBelongToTheirStates : Obligations.CountsBelongToTheirStates := by
  intro s t h run
  unfold step at run
  split at run
  · cases run; exact h
  · next rest _ => exact exec_countsFit _ (h.of_frame (frame_set_pending s rest) (by decide) (by decide)) run

end Sys2Proof.Machine
end

section
/-! SUPPORT. The arbiter's fields of a record, the transmitter, and the fault run: each agrees with what it is derived
from (R79, R110, R112, R116, R123, R130, R133). -/

namespace Sys2Proof.Machine

/-! ### One record -/

/-- Wanted state and pending flag of a record are those derived from it, and an absent port has neither a confirmed
state nor a value in flight (R79, R123, R130). -/
structure PortRec.Derived (r : PortRec) : Prop where
  wanted : r.wanted = wantedOf r.override r.guard
  flag : r.pendingFlag = pendingOf r
  absent : r.present = false → r.confirmed = none ∧ r.inFlight = none

theorem deriveWanted_derived {r : PortRec} (flag : r.pendingFlag = pendingOf r)
    (absent : r.present = false → r.confirmed = none ∧ r.inFlight = none) : r.deriveWanted.Derived := by
  have kept := deriveWanted_kept r
  refine ⟨?_, ?_, ?_⟩
  · rw [deriveWanted_wanted, kept.override, deriveWanted_guard]
  · obtain ⟨same, changed⟩ := deriveWanted_flag r
    by_cases stays : r.deriveWanted.wanted = r.wanted
    · rw [same stays, flag]
      simp only [pendingOf, kept.present, kept.confirmed, kept.inFlight, stays]
    · exact changed stays
  · rw [kept.present, kept.confirmed, kept.inFlight]
    exact absent

theorem move_derived {a b : Nat × PortRec} (move : PortRec.Move a b) (h : a.2.Derived) : b.2.Derived := by
  cases move with
  | enter counts => exact deriveWanted_derived h.flag h.absent
  | override o => exact deriveWanted_derived h.flag h.absent
  | _ => exact ⟨h.wanted, h.flag, h.absent⟩

theorem move_inFlight {a b : Nat × PortRec} (move : PortRec.Move a b) : b.2.inFlight = a.2.inFlight := by
  cases move with
  | enter counts => exact (deriveWanted_kept _).inFlight
  | override o => exact (deriveWanted_kept _).inFlight
  | _ => rfl

theorem moves_derived {a b : Nat × PortRec} (moves : PortRec.Moves a b) (h : a.2.Derived) :
    b.2.Derived ∧ b.2.inFlight = a.2.inFlight := by
  induction moves with
  | refl => exact ⟨h, rfl⟩
  | tail _ move ih => exact ⟨move_derived move ih.1, (move_inFlight move).trans ih.2⟩

theorem startRecord_derived (q : Policy) (role : Role) : (startRecord q role).Derived := by
  refine ⟨?_, rfl, fun absent => by cases absent⟩
  cases role <;> rfl

theorem absented_derived (r : PortRec) : r.absented.Derived ∧ r.absented.inFlight = none :=
  ⟨deriveWanted_derived rfl fun _ => ⟨rfl, rfl⟩, (absented_absent r).1.arbiter.2.1⟩

/-- A port whose confirmed state has become UNKNOWN, with no value in flight, is pending when it is present. -/
theorem unknown_derived {r : PortRec} (wanted : r.wanted = wantedOf r.override r.guard) (unknown : r.confirmed = none)
    (free : r.inFlight = none) (flag : r.pendingFlag = r.present) : r.Derived :=
  ⟨wanted, by simp [flag, pendingOf, unknown, free], fun _ => ⟨unknown, free⟩⟩

/-! ### The transmitter -/

/-- What the transmitter holds: a record waits only behind another, at most one is a command, and one is exactly while a
command is outstanding with its ACK timer stopped (R110, R112). -/
structure TxFits (sending waiting : Option OutRecord) (outstanding : Option Outstanding) : Prop where
  waits : sending = none → waiting = none
  single : ∀ a b, sending = some a → waiting = some b → ¬(a.isCommand = true ∧ b.isCommand = true)
  timed : (∃ a, (sending = some a ∨ waiting = some a) ∧ a.isCommand = true) ↔
    ∃ o, outstanding = some o ∧ o.timerRunning = false

section
variable {sending waiting : Option OutRecord} {outstanding : Option Outstanding}

/-- With no command that waits for its last bit, the transmitter holds no command. -/
theorem TxFits.strobes (h : TxFits sending waiting outstanding)
    (sent : ∀ o, outstanding = some o → o.timerRunning = true) :
    ∀ a, sending = some a ∨ waiting = some a → a.isCommand = false := by
  intro a mem
  by_contra command
  obtain ⟨o, out, stopped⟩ := h.timed.mp ⟨a, mem, Bool.eq_true_of_not_eq_false command⟩
  exact absurd ((sent o out).symm.trans stopped) (by decide)

theorem TxFits.of_strobes (waits : sending = none → waiting = none)
    (strobes : ∀ a, sending = some a ∨ waiting = some a → a.isCommand = false)
    (sent : ∀ o, outstanding = some o → o.timerRunning = true) : TxFits sending waiting outstanding where
  waits := waits
  single a _ is _ both := absurd (both.1.symm.trans (strobes a (Or.inl is))) (by decide)
  timed :=
    ⟨fun ⟨a, mem, command⟩ => absurd (command.symm.trans (strobes a mem)) (by decide),
      fun ⟨o, out, stopped⟩ => absurd ((sent o out).symm.trans stopped) (by decide)⟩

/-- A command whose ACK timer runs can end, or another take its place, without a change of the transmitter. -/
theorem TxFits.ended (h : TxFits sending waiting outstanding)
    (sent : ∀ o, outstanding = some o → o.timerRunning = true) : TxFits sending waiting none :=
  .of_strobes h.waits (h.strobes sent) nofun

/-- A STROBE handed to the transmitter, where no command waits. -/
theorem TxFits.handStrobe (b : Byte) (h : TxFits sending waiting outstanding)
    (strobes : ∀ a, waiting = some a → a.isCommand = false) :
    TxFits (sending.orElse fun _ => some (.strobe b)) (if sending.isSome then some (.strobe b) else waiting)
      outstanding := by
  cases sending with
  | none =>
    obtain rfl := h.waits rfl
    have none_stopped : ¬ ∃ o, outstanding = some o ∧ o.timerRunning = false := by
      rw [← h.timed]
      simp
    exact ⟨nofun, nofun, by simp [none_stopped, OutRecord.isCommand]⟩
  | some a =>
    refine ⟨nofun, fun _ c _ is both => ?_, ?_⟩
    · cases is
      cases both.2
    · rw [← h.timed]
      constructor
      · rintro ⟨c, is | is, command⟩
        · exact ⟨c, Or.inl is, command⟩
        · cases is
          cases command
      · rintro ⟨c, is | is, command⟩
        · exact ⟨c, Or.inl is, command⟩
        · exact absurd (command.symm.trans (strobes c is)) (by decide)

/-- A granted command handed to the transmitter, which holds no other (R111, R112). -/
theorem TxFits.handCommand {r : OutRecord} {o : Outstanding} (h : TxFits sending waiting none)
    (command : r.isCommand = true) (stopped : o.timerRunning = false) :
    TxFits (sending.orElse fun _ => some r) (if sending.isSome then some r else waiting) (some o) := by
  have strobes := h.strobes nofun
  cases sending with
  | none =>
    obtain rfl := h.waits rfl
    exact ⟨nofun, nofun, fun _ => ⟨o, rfl, stopped⟩, fun _ => ⟨r, Or.inl rfl, command⟩⟩
  | some a =>
    refine ⟨nofun, fun _ _ is _ both => ?_, fun _ => ⟨o, rfl, stopped⟩, fun _ => ⟨r, Or.inr rfl, command⟩⟩
    exact absurd (both.1.symm.trans (strobes _ (Or.inl is))) (by decide)

/-- The last bit of a STROBE. -/
theorem TxFits.strobeSent {b : Byte} (h : TxFits (some (.strobe b)) waiting outstanding) :
    TxFits waiting none outstanding where
  waits _ := rfl
  single := nofun
  timed := by
    rw [← h.timed]
    constructor
    · rintro ⟨a, is | is, command⟩
      · exact ⟨a, Or.inr is, command⟩
      · cases is
    · rintro ⟨a, is | is, command⟩
      · cases is
        cases command
      · exact ⟨a, Or.inl is, command⟩

/-- The last bit of a command, with which its ACK timer starts. -/
theorem TxFits.commandSent {a : OutRecord} (h : TxFits (some a) waiting outstanding) (command : a.isCommand = true) :
    TxFits waiting none (outstanding.map fun o => { o with timerRunning := true }) := by
  refine .of_strobes (fun _ => rfl) (fun b is => ?_) (fun o out => ?_)
  · rcases is with is | is
    · by_contra other
      exact h.single a b rfl is ⟨command, Bool.eq_true_of_not_eq_false other⟩
    · cases is
  · obtain ⟨_, -, rfl⟩ := Option.map_eq_some_iff.mp out
    rfl

end

/-! ### The state -/

/-- The outstanding command as the in-flight markers see it: its kind and its port. -/
def State.commanded (s : State) : Option (OutstandingKind × Port) := s.glink.outstanding.map fun o => (o.kind, o.port)

/-- Only the port of an outstanding SETPORT has a value in flight. -/
def Marked (s : State) : Prop := ∀ p, (s.port p).inFlight ≠ none → ∃ q, s.commanded = some (.setport q, p)

/-- The fault run, which reaches 3 only with the link UNRESPONSIVE (R116, R133). -/
def RunFits (s : State) : Prop := s.arbiter.faultRun ≤ 3 ∧ (s.glink.state = .up → s.arbiter.faultRun ≤ 2)

theorem commanded_none {s : State} : s.commanded = none ↔ s.glink.outstanding = none := Option.map_eq_none_iff

theorem commanded_some {s : State} {k : OutstandingKind} {p : Port} :
    s.commanded = some (k, p) ↔ ∃ o, s.glink.outstanding = some o ∧ o.kind = k ∧ o.port = p := by
  simp only [State.commanded, Option.map_eq_some_iff, Prod.mk.injEq]

theorem ChannelFits.derived {s : State} (h : ChannelFits s) (p : Port) : (s.port p).Derived :=
  ⟨h.wanted p, h.flag p, h.absent p⟩

theorem ChannelFits.marked {s : State} (h : ChannelFits s) : Marked s := fun p flies => by
  obtain ⟨o, q, out, kind, port⟩ := h.marker p flies
  exact ⟨q, commanded_some.mpr ⟨o, out, kind, port⟩⟩

theorem ChannelFits.tx {s : State} (h : ChannelFits s) : TxFits s.glink.sending s.glink.waiting s.glink.outstanding :=
  ⟨h.waits, h.single, h.timed⟩

/-- The invariant from its parts. -/
theorem ChannelFits.of_parts {s : State} (derived : ∀ p, (s.port p).Derived) (marked : Marked s) (run : RunFits s)
    (loading : s.control.loading = true → s.commanded = none)
    (tx : TxFits s.glink.sending s.glink.waiting s.glink.outstanding) : ChannelFits s where
  wanted p := (derived p).wanted
  flag p := (derived p).flag
  absent p := (derived p).absent
  marker p flies := by
    obtain ⟨q, is⟩ := marked p flies
    obtain ⟨o, out, kind, port⟩ := commanded_some.mp is
    exact ⟨o, q, out, kind, port⟩
  run := run
  loading l := commanded_none.mp (loading l)
  waits := tx.waits
  single := tx.single
  timed := tx.timed

theorem ChannelFits.of_moved {s t : State} (h : ChannelFits s) (moved : Moved s t) : ChannelFits t := by
  have records (p : Port) := moves_derived (moved.records p) (h.derived p)
  have commanded : t.commanded = s.commanded := by rw [State.commanded, moved.outstanding, State.commanded]
  refine .of_parts (fun p => (records p).1) (fun p flies => ?_) ?_ (fun l => ?_) ?_
  · rw [commanded]
    exact h.marked p ((records p).2 ▸ flies)
  · rcases moved.run with zero | ⟨run, link⟩
    · simp [RunFits, zero]
    · rw [RunFits, run, link]
      exact h.run
  · rw [commanded, commanded_none]
    exact h.loading (moved.loading ▸ l)
  · rw [moved.sending, moved.waiting, moved.outstanding]
    exact h.tx

/-- A step of the transmitter, which leaves the records, the outstanding command and the fault run. -/
theorem ChannelFits.of_tx {s t : State} (h : ChannelFits s) (ports : t.ports = s.ports) (run : RunFits s → RunFits t)
    (control : t.control = s.control) (commanded : t.commanded = s.commanded)
    (tx : TxFits t.glink.sending t.glink.waiting t.glink.outstanding) : ChannelFits t := by
  refine .of_parts (fun p => ?_) (fun p => ?_) (run h.run) (fun l => ?_) tx
  · rw [port_congr ports]
    exact h.derived p
  · rw [port_congr ports, commanded]
    exact h.marked p
  · rw [commanded, commanded_none]
    exact h.loading (control ▸ l)

theorem channelFits_ite {c : Prop} [Decidable c] {s t : State} (h : ChannelFits t) (k : ChannelFits s) :
    ChannelFits (if c then t else s) := by
  split
  · exact h
  · exact k

/-! ### Strobes and last bits -/

theorem channelFits_handStrobe (b : Byte) {s : State} (h : ChannelFits s)
    (strobes : ∀ a, s.glink.waiting = some a → a.isCommand = false) : ChannelFits (handTx (.strobe b) s) := by
  rw [handTx_eq]
  exact h.of_tx rfl id rfl rfl (h.tx.handStrobe b strobes)

theorem channelFits_strobeSent {b : Byte} {s : State} (h : ChannelFits s)
    (strobe : s.glink.sending = some (.strobe b)) : ChannelFits (strobeSent s) := by
  have tx := h.tx
  rw [strobe] at tx
  exact h.of_tx rfl id rfl rfl tx.strobeSent

theorem channelFits_commandSent {a : OutRecord} {s : State} (h : ChannelFits s) (sending : s.glink.sending = some a)
    (command : a.isCommand = true) : ChannelFits (commandSent s) := by
  have tx := h.tx
  rw [sending] at tx
  refine h.of_tx rfl id rfl ?_ (tx.commandSent command)
  simp only [State.commanded, commandSent, Option.map_map]
  rfl

/-- Once the STROBEs of the last interval are sent, nothing waits in the transmitter. -/
theorem channelFits_strobesSent {s : State} (h : ChannelFits s) :
    ChannelFits (strobesSent s) ∧ (strobesSent s).glink.waiting = none := by
  have behind {a : OutRecord} (sending : s.glink.sending = some a) (command : a.isCommand = true)
      (other : ∀ b, s.glink.waiting ≠ some (.strobe b)) : s.glink.waiting = none := by
    cases waiting : s.glink.waiting with
    | none => rfl
    | some w =>
      cases w with
      | strobe b => exact absurd waiting (other b)
      | setport p v => exact absurd ⟨command, rfl⟩ (h.single a _ sending waiting)
      | inject p r d => exact absurd ⟨command, rfl⟩ (h.single a _ sending waiting)
  have follows {a : OutRecord} {b : Byte} (sending : s.glink.sending = some a) (command : a.isCommand = true)
      (waiting : s.glink.waiting = some (.strobe b)) : ChannelFits (strobeSent (commandSent s)) :=
    channelFits_strobeSent (channelFits_commandSent h sending command) waiting
  unfold strobesSent
  split
  · next strobe => exact ⟨channelFits_strobeSent h strobe, rfl⟩
  · next sending =>
    split
    · next waiting => exact ⟨follows sending rfl waiting, rfl⟩
    · next other => exact ⟨h, behind sending rfl other⟩
  · next sending =>
    split
    · next waiting => exact ⟨follows sending rfl waiting, rfl⟩
    · next other => exact ⟨h, behind sending rfl other⟩
  · next idle => exact ⟨h, h.waits idle⟩

/-! ### Grants -/

theorem canGrant_idle {s : State} (can : canGrant s = true) :
    s.control.loading = false ∧ s.glink.outstanding = none := by
  simp only [canGrant, Bool.and_eq_true, Bool.not_eq_true', Option.isNone_iff_eq_none] at can
  exact can.1

theorem nextGrant_canGrant {s : State} {g : Grant} (grant : nextGrant s = some g) : canGrant s = true := by
  by_contra no
  rw [nextGrant, if_neg no] at grant
  cases grant

theorem search_pending {c : SetportClass} {s : State} {p : Port} (found : search c s = some p) :
    (s.port p).pendingFlag = true := by
  have has := List.find?_some found
  rw [decide_eq_true_eq] at has
  by_contra clear
  rw [classOf, if_neg clear] at has
  cases has

/-- A SETPORT is granted for a pending port. -/
theorem nextGrant_pending {s : State} {p : Port} (grant : nextGrant s = some (.setport p)) :
    (s.port p).pendingFlag = true := by
  rw [nextGrant, if_pos (nextGrant_canGrant grant)] at grant
  split at grant
  · next found => cases grant; exact search_pending found
  · cases grant
  · next found => cases grant; exact search_pending found
  · cases grant

/-- A grant of a SETPORT: the value in flight, the pointer, and the command in the transmitter (R110, R127). -/
theorem grantSetport_eq (p : Port) (s : State) :
    grantSetport p s =
      { s.setPort p ({ s.port p with inFlight := some (s.port p).wanted } : PortRec).recompute with
        arbiter := useAllowance { s.arbiter with pointer := p }
        glink :=
          { s.glink with
            outstanding := some ⟨.setport s.arbiter.pointer, p, false⟩
            sending := s.glink.sending.orElse fun _ => some (.setport p (s.port p).wanted)
            waiting := if s.glink.sending.isSome then some (.setport p (s.port p).wanted) else s.glink.waiting } } := by
  rw [grantSetport, handTx_eq]
  rfl

theorem useAllowance_run (a : Arbiter) : (useAllowance a).faultRun = a.faultRun := by rw [useAllowance_eq]

/-- With no command outstanding no port has a value in flight. -/
theorem Marked.free {s : State} (h : Marked s) (idle : s.glink.outstanding = none) (p : Port) :
    (s.port p).inFlight = none := by
  by_contra flies
  obtain ⟨_, is⟩ := h p flies
  rw [commanded_none.mpr idle] at is
  cases is

theorem channelFits_grantSetport {p : Port} {s : State} (h : ChannelFits s)
    (grant : nextGrant s = some (.setport p)) : ChannelFits (grantSetport p s) := by
  obtain ⟨loaded, idle⟩ := canGrant_idle (nextGrant_canGrant grant)
  have present : (s.port p).present = true := by
    have pending := (h.flag p).symm.trans (nextGrant_pending grant)
    simp only [pendingOf, Bool.and_eq_true] at pending
    exact pending.1.1
  have port (q : Port) : (grantSetport p s).port q =
      if q = p then ({ s.port p with inFlight := some (s.port p).wanted } : PortRec).recompute else s.port q := by
    rw [grantSetport_eq]
    exact port_setPort s p q _
  have control : (grantSetport p s).control = s.control := frame_grantSetport p s .control (by decide)
  refine .of_parts (fun q => ?_) (fun q => ?_) ?_ (fun l => ?_) ?_
  · rw [port]
    split
    · exact ⟨h.wanted p, rfl, fun absent => absurd (present.symm.trans absent) (by decide)⟩
    · exact h.derived q
  · rw [port]
    split
    · next same => exact fun _ => ⟨s.arbiter.pointer, by rw [grantSetport_eq, same]; rfl⟩
    · exact fun flies => absurd (h.marked.free idle q) flies
  · rw [grantSetport_eq, RunFits, useAllowance_run]
    exact h.run
  · rw [control, loaded] at l
    cases l
  · have tx := h.tx
    rw [idle] at tx
    rw [grantSetport_eq]
    exact tx.handCommand rfl rfl

/-- A granted probe leaves the records, and its INJECT is the outstanding command. -/
theorem channelFits_grantProbe {p : Port} {s : State} (h : ChannelFits s) (grant : nextGrant s = some (.probe p)) :
    ChannelFits (grantProbe p s) := by
  obtain ⟨loaded, idle⟩ := canGrant_idle (nextGrant_canGrant grant)
  have listed : Moved s { s with probe := { s.probe with list := s.probe.list.tail } } :=
    .of_frame (frame_set_probe s _) (by decide)
  have ports : (grantProbe p s).ports = s.ports := frame_grantProbe p s .ports (by decide)
  have control : (grantProbe p s).control = s.control := frame_grantProbe p s .control (by decide)
  have port (q : Port) : (grantProbe p s).port q = s.port q := port_congr ports q
  unfold grantProbe at port control ⊢
  dsimp only at port control ⊢
  split
  · exact h.of_moved (listed.trans (.of_frame (frame_skipProbe _) (by decide)))
  · next i free =>
    simp only [free] at port control
    have tx := h.tx
    rw [idle] at tx
    refine .of_parts (fun q => ?_) (fun q flies => ?_) ?_ (fun l => ?_) ?_
    · rw [port]
      exact h.derived q
    · rw [port] at flies
      exact absurd (h.marked.free idle q) flies
    · rw [handTx_eq, RunFits]
      dsimp only
      rw [useAllowance_run]
      exact h.run
    · rw [control, loaded] at l
      cases l
    · rw [handTx_eq]
      exact tx.handCommand rfl rfl

end Sys2Proof.Machine
end

section
/-! SUPPORT. The pending flag, the in-flight marker and the transmitter through ACKs, timeouts and every command (R112
to R114, R123, R129, R130, R132 to R134). -/

namespace Sys2Proof.Machine

/-! ### The end of a command -/

/-- A command whose ACK timer runs ends: its port is left with nothing in flight, and no other port had a value in
flight. -/
theorem ChannelFits.ended {s t : State} {o : Outstanding} (h : ChannelFits s) (out : s.glink.outstanding = some o)
    (running : o.timerRunning = true) (others : ∀ q, q ≠ o.port → t.port q = s.port q)
    (own : (t.port o.port).Derived ∧ (t.port o.port).inFlight = none) (sending : t.glink.sending = s.glink.sending)
    (waiting : t.glink.waiting = s.glink.waiting) (idle : t.glink.outstanding = none) (run : RunFits t) :
    ChannelFits t := by
  refine .of_parts (fun q => ?_) (fun q flies => ?_) run (fun _ => commanded_none.mpr idle) ?_
  · by_cases same : q = o.port
    · rw [same]; exact own.1
    · rw [others q same]; exact h.derived q
  · by_cases same : q = o.port
    · rw [same] at flies
      exact absurd own.2 flies
    · rw [others q same] at flies
      obtain ⟨_, is⟩ := h.marked q flies
      obtain ⟨x, out', -, port⟩ := commanded_some.mp is
      rw [out] at out'
      cases out'
      exact absurd port.symm same
  · rw [sending, waiting, idle]
    exact h.tx.ended fun x out' => by
      rw [out] at out'
      cases out'
      exact running

/-- No port has a value in flight while an INJECT is outstanding. -/
theorem Marked.inject {s : State} {o : Outstanding} {r : Round} (h : Marked s) (out : s.glink.outstanding = some o)
    (kind : o.kind = .inject r) (p : Port) : (s.port p).inFlight = none := by
  by_contra flies
  obtain ⟨q, is⟩ := h p flies
  obtain ⟨x, out', kind', -⟩ := commanded_some.mp is
  rw [out] at out'
  cases out'
  rw [kind] at kind'
  cases kind'

/-- ACK OK to a SETPORT: the value in flight is confirmed, and nothing is in flight any more (R129). -/
theorem setportConfirmed_derived {p : Port} {s : State} (h : (s.port p).Derived) :
    ((setportConfirmed p s).port p).Derived ∧ ((setportConfirmed p s).port p).inFlight = none := by
  rw [setportConfirmed, port_modPort_self]
  refine ⟨⟨h.wanted, rfl, fun absent => ?_⟩, rfl⟩
  obtain ⟨confirmed, free⟩ := h.absent absent
  refine ⟨?_, rfl⟩
  simp only [PortRec.recompute, free]
  exact confirmed

/-- The link events of an ACK, and in START its sweep, leave no command outstanding. -/
theorem channelFits_sweepAnswered (p : Port) {s : State} (h : ChannelFits s) (idle : s.glink.outstanding = none) :
    ChannelFits (sweepAnswered p s) := by
  have left : Moved s (leaveSweep p s) := moved_set_control s _ rfl rfl
  have started : ChannelFits (startDone (leaveSweep p s)) := by
    have booted := left.trans (moved_booted (leaveSweep p s))
    have clocked : Moved s { Machine.booted (leaveSweep p s) with
        clock := { (Machine.booted (leaveSweep p s)).clock with
          length := some (Machine.booted (leaveSweep p s)).control.policy.tIVL } } :=
      booted.trans (.of_frame (frame_set_clock _ _) (by decide))
    have fits := h.of_moved clocked
    rw [startDone_eq]
    refine (channelFits_handStrobe 0 fits fun a waits => ?_).of_moved (moved_roundSteps _)
    refine fits.tx.strobes (fun o out => ?_) a (Or.inr waits)
    rw [clocked.outstanding, idle] at out
    cases out
  exact channelFits_ite (channelFits_ite started (h.of_moved left)) h

theorem channelFits_ackTaken (f : PortField) (ok up : Bool) {s : State} (h : ChannelFits s) :
    ChannelFits (ackTaken f ok up s) := by
  have seen : Moved s (ackSeen s) := ⟨fun _ => .refl, rfl, rfl, rfl, rfl, Or.inl rfl⟩
  have stray : ChannelFits (strayAck (ackSeen s)) := h.of_moved (seen.trans (moved_set_glink _ _ rfl rfl rfl rfl))
  unfold ackTaken
  split
  · exact stray
  · next o out =>
    split
    · next taken =>
      have ends {t : State} (others : ∀ q, q ≠ o.port → t.port q = s.port q)
          (own : (t.port o.port).Derived ∧ (t.port o.port).inFlight = none)
          (frame : OnlyChanges [.ports] (endCommand (ackSeen s)) t) : ChannelFits t := by
        have glink : t.glink = { s.glink with outstanding := none } := frame .glink (by decide)
        have arbiter : t.arbiter = { s.arbiter with consecutive := 0, faultRun := 0 } := frame .arbiter (by decide)
        refine h.ended out taken.1 others own ?_ ?_ ?_ ?_
        · rw [glink]
        · rw [glink]
        · rw [glink]
        · rw [RunFits, arbiter]
          exact ⟨Nat.zero_le _, fun _ => Nat.zero_le _⟩
      unfold ackEnds
      split
      · have confirmed : ChannelFits (setportConfirmed o.port (endCommand (ackSeen s))) :=
          ends (fun q other => port_modPort_ne _ _ other) (setportConfirmed_derived (h.derived _))
            (frame_setportConfirmed _ _)
        have absented : ChannelFits ((endCommand (ackSeen s)).modPort o.port PortRec.absented) :=
          ends (fun q other => port_modPort_ne _ _ other)
            (by rw [port_modPort_self]; exact absented_derived _) (frame_modPort _ _ _)
        split
        · have reported := moved_linkReport o.port up (setportConfirmed o.port (endCommand (ackSeen s)))
          exact channelFits_sweepAnswered _ (confirmed.of_moved reported) reported.outstanding
        · have absent := moved_absence o.port (endCommand (ackSeen s))
          exact channelFits_sweepAnswered _ (absented.of_moved absent) absent.outstanding
      · next r kind =>
        have ended : ChannelFits (endCommand (ackSeen s)) :=
          ends (fun _ _ => rfl) ⟨h.derived _, h.marked.inject out kind _⟩ (.refl _ _)
        refine ended.of_moved (Moved.trans ?_ (moved_linkReport ..))
        exact .ite (.of_frame (frame_probeAcked _ _ _) (by decide)) (.of_frame (frame_probeEnded _ _ _) (by decide))
    · exact stray

/-! ### A timeout -/

/-- A timed-out command, before the timeout is counted. -/
theorem channelFits_commandEnded {o : Outstanding} {s : State} (h : ChannelFits s)
    (out : s.glink.outstanding = some o) (running : o.timerRunning = true) : ChannelFits (commandEnded o s) := by
  have timed (q : Port) : (timedOut s).port q = s.port q := port_congr rfl q
  unfold commandEnded
  split
  · next previous _ =>
    have port (q : Port) := setportTimedOut_port o.port previous q (timedOut s)
    refine h.ended out running (fun q other => ?_) ?_ ?_ ?_ ?_ ?_
    · rw [port, if_neg other, timed]
    · rw [port, if_pos rfl, timed]
      exact ⟨unknown_derived (h.wanted _) rfl rfl rfl, rfl⟩
    · rw [setportTimedOut_eq]; rfl
    · rw [setportTimedOut_eq]; rfl
    · rw [setportTimedOut_eq]; rfl
    · rw [setportTimedOut_eq]; exact h.run
  · next r kind =>
    have ended : ChannelFits (timedOut s) :=
      h.ended out running (fun q _ => timed q) (by rw [timed]; exact ⟨h.derived _, h.marked.inject out kind _⟩) rfl rfl
        rfl h.run
    exact ended.of_moved (.of_frame (frame_probeEnded _ _ _) (by decide))

/-- A link that fails leaves every confirmed state UNKNOWN, so that every present port is pending (R134). -/
theorem channelFits_linkFails (p : Port) (k : CommandKind) {s : State}
    (derived : ∀ q, (s.port q).Derived) (free : ∀ q, (s.port q).inFlight = none) (run : s.arbiter.faultRun ≤ 3)
    (idle : s.glink.outstanding = none) (tx : TxFits s.glink.sending s.glink.waiting s.glink.outstanding) :
    ChannelFits (linkFails p k s) := by
  have commanded : (linkFails p k s).commanded = none := by
    rw [commanded_none, linkFails_glink]
    exact idle
  refine .of_parts (fun q => ?_) (fun q flies => ?_) ?_ (fun _ => commanded) ?_
  · rw [linkFails_port]
    exact unknown_derived (derived q).wanted rfl (free q) rfl
  · rw [linkFails_port] at flies
    exact absurd (free q) flies
  · rw [RunFits, linkFails_arbiter, linkFails_glink]
    exact ⟨run, nofun⟩
  · rw [linkFails_glink]
    exact tx

theorem channelFits_commandTimeout {o : Outstanding} {s : State} (h : ChannelFits s)
    (out : s.glink.outstanding = some o) (running : o.timerRunning = true) : ChannelFits (commandTimeout o s) := by
  have ended := channelFits_commandEnded h out running
  have idle : (commandEnded o s).glink.outstanding = none := congrArg GuardLink.outstanding (commandEnded_glink o s)
  have run : (countTimeout (commandEnded o s)).arbiter.faultRun ≤ 3 := Nat.min_le_left _ _
  rw [commandTimeout_eq, judgeLink]
  split
  · exact channelFits_linkFails _ _ ended.derived (ended.marked.free idle) run idle ended.tx
  · next stands =>
    refine ended.of_tx rfl (fun _ => ⟨run, fun up => ?_⟩) rfl rfl ended.tx
    have short : (countTimeout (commandEnded o s)).arbiter.faultRun ≠ 3 := fun third => stands ⟨up, third⟩
    omega

/-! ### Every command -/

theorem channelFits_resetTo (c : ResetCause) (baud : Bool) (s : State) : ChannelFits (resetTo c baud s) :=
  .of_parts channelFits_reset.derived channelFits_reset.marked channelFits_reset.run (fun _ => rfl) channelFits_reset.tx

theorem channelFits_loadDone {s : State} (h : ChannelFits s) : ChannelFits (loadDone s) := by
  refine .of_parts (fun p => ?_) (fun p flies => ?_) h.run nofun h.tx
  · rw [loadDone_port]
    exact startRecord_derived _ _
  · rw [loadDone_port] at flies
    exact absurd rfl flies

theorem channelFits_intervalEvent {s : State} (h : ChannelFits s) :
    ChannelFits (intervalTick (settleInterval s)) := by
  obtain ⟨settled, waiting⟩ := channelFits_strobesSent (h.of_moved (moved_intervalSettled s))
  rw [← settleInterval_eq] at settled waiting
  have before := moved_beforeStrobe (settleInterval s)
  refine (channelFits_handStrobe _ (settled.of_moved before) fun a waits => ?_).of_moved (moved_afterStrobe _)
  rw [before.waiting, waiting] at waits
  cases waits

theorem exec_channelFits (c : Instr) {s t : State} (h : ChannelFits s) (run : exec c s = .next t) :
    ChannelFits t := by
  cases moves : moving c with
  | true => exact h.of_moved (exec_moved moves run)
  | false =>
    cases c
    case powerReset baud => cases run; exact channelFits_resetTo ..
    case pinReset baud => cases run; exact channelFits_resetTo ..
    case replyEnd baud =>
      cases run
      have replied : Moved s (replyEnds s) := .of_frame (frame_replyEnds s) (by decide)
      exact channelFits_ite (channelFits_ite (channelFits_resetTo ..) (h.of_moved replied)) h
    case settingsStoreLoad =>
      cases run
      exact channelFits_ite (channelFits_loadDone h) h
    case intervalEvent => cases run; exact channelFits_ite h (channelFits_intervalEvent h)
    case ack f ok up =>
      cases run
      exact channelFits_ite (h.of_moved (moved_set_glink s _ rfl rfl rfl rfl))
        (channelFits_ackTaken f ok up (h.of_moved (moved_recordDone ..)))
    case ackTimeout =>
      cases run
      split
      · next out =>
        split
        · next running => exact channelFits_commandTimeout h out running
        · exact h
      · exact h
    case setport =>
      cases run
      split
      · next grant => exact channelFits_grantSetport h grant
      · exact h
      · exact h
    case inject =>
      cases run
      split
      · next grant => exact channelFits_grantProbe h grant
      · exact h
      · exact h
    case commandLastBit =>
      cases run
      split
      · next sending => exact channelFits_commandSent h sending rfl
      · next sending => exact channelFits_commandSent h sending rfl
      · exact h
      · exact h
    case strobeLastBit =>
      cases run
      split
      · next sending => exact channelFits_strobeSent h sending
      · exact h
      · exact h
      · exact h
    all_goals cases moves

/-- Settles O59: every change of a wanted, confirmed or in-flight value derives the flag afresh, a command enters the
transmitter only as the outstanding one, and its end takes the value in flight. -/
theorem pendingFlagMeansASetportIsOwed : Obligations.PendingFlagMeansASetportIsOwed := by
  intro s t h run
  unfold step at run
  split at run
  · cases run; exact h
  · next rest _ => exact exec_channelFits _ (h.of_moved (.of_frame (frame_set_pending s rest) (by decide))) run

end Sys2Proof.Machine
end

section
/-! SUPPORT. A clean and an unclean expiry for a port in LISTEN (R84, R85, R91), and the ends of the throttle hold, the
hold and the decay stretch where the LET is sound (R92, R96, R101). -/

namespace Sys2Proof.Machine

/-! ### The expiry of a probe whose egress is in LISTEN -/

/-- The withdrawal of an expiry leaves a port in LISTEN as it is. -/
theorem withdraw_listening {c : LetEntry → Bool} {s : State} {p : Port} (listens : (s.port p).guard = .listen) :
    (withdraw c s).port p = s.port p :=
  (goneAtMost_withdraw c s).stays (listening_not_freed listens)

/-- The bookkeeping of an egress in LISTEN, read in the state before the expiry. -/
theorem expireSlot_listening {s : State} {i : Fin 32} {e : OptEntry} {P : Prop} (sound : LetSound s)
    (entry : s.probe.opt.get i = some e) (probed : (s.port e.egress).role.probed = true)
    (listens : (s.port e.egress).guard = .listen)
    (clean : P ↔ e.caught = [] ∧ ¬ Involved (withdraw (unrenewed e) s) e.egress) :
    ListenBooked e.egress P s (expireSlot i s) :=
  (expireSlot_booked sound entry probed clean).1.congr (withdraw_listening listens).symm
    (frame_withdraw _ s .control (by decide)).symm

/-- Where no entry has the egress, the expiry of an uncaught probe withdraws nothing, and the bookkeeping of the egress
is all it does to records and reports. -/
theorem expireSlot_quiet {s : State} {i : Fin 32} {e : OptEntry} (sound : LetSound s)
    (entry : s.probe.opt.get i = some e) (uncaught : e.caught = []) (probed : (s.port e.egress).role.probed = true)
    (listens : (s.port e.egress).guard = .listen)
    (aside : ∀ j l, s.evidence.slots.get j = some l → l.egress ≠ e.egress ∧ l.ingress ≠ e.egress) :
    ListenBooked e.egress True s (expireSlot i s) ∧
      (LeavesListen e.egress True s → (expireSlot i s).reports = (report (listenDone e.egress s) s).reports) ∧
      (¬ LeavesListen e.egress True s → (expireSlot i s).reports = s.reports) ∧
      ∀ q, q ≠ e.egress → (expireSlot i s).port q = s.port q := by
  have nothing (v : Port) : v ∈ ([] : List Port) ↔
      (∃ j l, s.evidence.slots.get j = some l ∧ l.egress = e.egress ∧ l.ingress ∉ e.caught ∧ l.victim = some v) ∧
        ¬ Named (withdraw (unrenewed e) s) v := by
    refine ⟨nofun, ?_⟩
    rintro ⟨⟨j, l, stands, egress, -⟩, -⟩
    exact absurd egress (aside j l stands).1
  obtain ⟨ports, reports⟩ := withdraw_unrenewed sound List.Pairwise.nil nothing
  have ports' (q : Port) : (withdraw (unrenewed e) s).port q = s.port q := ports q
  have reports' : (withdraw (unrenewed e) s).reports = s.reports := reports
  have control : (withdraw (unrenewed e) s).control = s.control := frame_withdraw _ s .control (by decide)
  have clock : (withdraw (unrenewed e) s).clock = s.clock := frame_withdraw _ s .clock (by decide)
  have clean : True ↔ e.caught = [] ∧ ¬ Involved (withdraw (unrenewed e) s) e.egress := by
    refine iff_of_true trivial ⟨uncaught, fun ⟨j, l, stands, own⟩ => ?_⟩
    obtain ⟨egress, ingress⟩ := aside j l ((withdraw_get _ s j l).mp stands).1
    exact own.elim egress ingress
  obtain ⟨-, leaves, stays⟩ := expireSlot_booked sound entry probed clean
  refine ⟨expireSlot_listening sound entry probed listens clean, fun is => ?_, fun not => ?_, fun q other => ?_⟩
  · rw [leaves ((LeavesListen.congr (ports' _) control).mpr is), listenDone_congr (ports' _)]
    exact report_reports_congr _ reports' (by rw [clock])
  · rw [stays ((LeavesListen.congr (ports' _) control).not.mpr not), reports']
  · have cleared (t : State) : (clearOpt i t).port q = t.port q := port_congr rfl q
    rw [expireSlot_eq entry, if_pos probed, cleared, listenBook_other_sound _ (letSound_withdraw sound) other, ports']

/-- Settles O11: the expiry books its egress, clean where nothing was caught and no entry that it leaves has the
port. -/
theorem cleanExpiryCountsTowardsForward : Obligations.CleanExpiryCountsTowardsForward := by
  refine ⟨fun s i e _ sound entry due uncaught probed listens aside => ?_,
    fun s i e _ sound entry due probed listens unclean => ?_⟩
  · intro n
    obtain ⟨booked, leaves, stays, others⟩ := expireSlot_quiet sound entry uncaught probed listens aside
    refine ⟨_, exec_expiry due, fun few => ?_, fun enough => ?_, others⟩
    · rw [booked.counts listens trivial few]
      exact ⟨listens, rfl, stays fun leaves => absurd leaves.2.2 (Nat.not_le.mpr few)⟩
    · have away : LeavesListen e.egress True s := ⟨listens, trivial, enough⟩
      have told := leaves away
      rw [listenDone] at told
      cases trip : (s.port e.egress).trip with
      | false =>
        have entered := booked.leaves away trip
        obtain ⟨listen, throttle, -⟩ := entered.counts
        rw [trip] at told
        exact ⟨listen, entered.guard, throttle, told⟩
      | true =>
        obtain ⟨guard, throttle, listen, -⟩ := booked.throttles away trip
        rw [trip] at told
        exact ⟨listen, guard, throttle, told⟩
  · have clean : False ↔ e.caught = [] ∧ ¬ Involved (withdraw (unrenewed e) s) e.egress := by
      refine iff_of_false id fun ⟨uncaught, free⟩ => ?_
      rcases unclean with caught | ⟨j, l, stands, egress, ingress⟩
      · exact caught uncaught
      · have left : unrenewed e l = false :=
          Bool.eq_false_iff.mpr fun withdrawn => egress (unrenewed_iff.mp withdrawn).1
        exact free ⟨j, l, (withdraw_get _ s j l).mpr ⟨stands, sound.2 j l stands, left⟩, Or.inr ingress⟩
    exact ⟨_, exec_expiry due, (expireSlot_listening sound entry probed listens clean).unclean listens id⟩

/-! ### The ends of the counts -/

/-- A port whose due mark has been taken away moves to a state with no count of its own. -/
theorem goPlain_judged {p : Port} {f : PortRec → PortRec} (g : GuardState) (c : StateCause) (s : State)
    (guard : (f (s.port p)).guard = (s.port p).guard) :
    OnlyChanges [.ports, .reports] s (goPlain p g c (s.modPort p f)) ∧
      (goPlain p g c (s.modPort p f)).port p = (f (s.port p)).enter g 0 0 ∧
      (∀ q, q ≠ p → (goPlain p g c (s.modPort p f)).port q = s.port q) ∧
      (goPlain p g c (s.modPort p f)).reports = (report (.state p (s.port p).guard g c) s).reports := by
  refine ⟨?_, ?_, fun q other => ?_, ?_⟩
  · exact ((frame_modPort p f s).mono (by decide)).comp (frame_goPlain p g c _) (by decide)
  · rw [goPlain_port, if_pos rfl, port_modPort_self]
  · rw [goPlain_port, if_neg other, port_modPort_ne _ _ other]
  · rw [goPlain_reports, port_modPort_self, guard]
    exact report_reports_congr _ rfl rfl

/-- The end of a throttle hold with the trip flag clear, where the LET is sound (R92). -/
theorem exec_throttleEnds {p : Port} {g : GuardState} {s : State} (sound : LetSound s)
    (due : (s.port p).throttleDue = true) (throttled : (s.port p).guard = .throttle)
    (ended : (s.port p).throttleHold = 0) (clear : (s.port p).trip = false)
    (undue : ∀ q, q < p →
      (s.port q).throttleDue = false ∧ (s.port q).holdDue = false ∧ (s.port q).decayDue = false)
    (suspect : Named s p → g = .suspect) (forward : ¬ Named s p → g = .forward) :
    exec (.throttleHoldExpiry p) s =
      .next (goPlain p g .clear (s.modPort p fun r => { r with throttleDue := false })) := by
  have judged : LetSound (s.modPort p fun r => { r with throttleDue := false }) := sound
  show execThrottleHoldExpiry p s = _
  rw [execThrottleHoldExpiry, if_pos due, lowerPortsEnd_same undue, throttleEnds]
  exact congrArg Host.Outcome.next
    ((if_pos ⟨due, throttled, ended, clear⟩).trans (leaveThrottle_sound judged suspect forward))

/-- The end of a hold where the LET is sound (R96). -/
theorem exec_holdEnds {p : Port} {s : State} (sound : LetSound s) (due : (s.port p).holdDue = true)
    (blocked : (s.port p).guard = .blocked) (ended : (s.port p).hold = 0)
    (undue : ∀ q, q < p →
      (s.port q).throttleDue = false ∧ (s.port q).holdDue = false ∧ (s.port q).decayDue = false) :
    exec (.holdExpiry p) s =
      .next (if s.named p then holdJudged p s else goPlain p .listen .release (holdJudged p s)) := by
  have judged : LetSound (holdJudged p s) := sound
  have named : (holdJudged p s).named p = s.named p := rfl
  have owed (t : State) : (goPlain p .listen .release t).evidence = t.evidence :=
    frame_goPlain _ _ _ _ .evidence (by decide)
  rw [exec_holdExpiry due blocked ended undue, readLet_sound judged, named, settleSweep_clear]
  split
  · exact sound.1
  · rw [owed]; exact sound.1

/-- Settles O12: each end is judged by its own command, with no lower port's judgement before it. -/
theorem countsThatEndAreJudged : Obligations.CountsThatEndAreJudged := by
  refine ⟨fun s p sound due throttled ended clear undue g suspect forward => ?_,
    fun s p sound due blocked ended undue => ⟨fun unnamed => ?_, fun named => ?_⟩, fun s p due => ?_⟩
  · obtain ⟨frame, port, others, reports⟩ :=
      goPlain_judged (p := p) (f := fun r => { r with throttleDue := false }) g .clear s rfl
    obtain ⟨guard, -, throttle, -, decay, strike, -⟩ := enter_spec { s.port p with throttleDue := false } g 0 0
    refine ⟨_, exec_throttleEnds sound due throttled ended clear undue suspect forward, ?_⟩
    rw [port]
    rw [throttled] at reports
    exact ⟨frame, guard, decay, strike, throttle, others, reports⟩
  · obtain ⟨frame, port, others, reports⟩ :=
      goPlain_judged (p := p) (f := fun r => { r with holdDue := false }) .listen .release s rfl
    obtain ⟨guard, listen, -, hold, -, strike, -⟩ := enter_spec { s.port p with holdDue := false } .listen 0 0
    refine ⟨_, exec_holdEnds sound due blocked ended undue, ?_⟩
    rw [(named_false s p).mpr unnamed, if_neg Bool.false_ne_true, holdJudged, port]
    rw [blocked] at reports
    exact ⟨frame, guard, listen, hold, strike, others, reports⟩
  · refine ⟨_, exec_holdEnds sound due blocked ended undue, ?_⟩
    rw [if_pos ((named_iff s p).mpr named)]
    exact ⟨frame_modPort p _ s, port_modPort_self .., fun q other => port_modPort_ne s _ other⟩
  · exact congrArg Host.Outcome.next (if_pos due)

end Sys2Proof.Machine
end

section
/-! SUPPORT. The fall to AUTONOMOUS on host loss (R103, R147, R148), and the OVRD request (R79, R102, R163). -/

namespace Sys2Proof.Machine

/-! ### The entry into AUTONOMOUS -/

/-- The state of an entry into AUTONOMOUS before the stored roles are applied: the mode is entered, the overrides are
NONE, and the stored policy is in force (R147). -/
def repoliced (c : ModeCause) (s : State) : State :=
  applyPolicy s.settings.readPolicy (clearOverrides (setMode .autonomous c s))

theorem enterAutonomous_eq (c : ModeCause) (s : State) :
    enterAutonomous c s = roleChange (fun p => s.settings.readRoles.get p) (repoliced c s) := by
  have applied (q : Policy) (t : State) : (applyPolicy q t).settings = t.settings :=
    frame_applyPolicy q t .settings (by decide)
  have settings : (clearOverrides (setMode .autonomous c s)).settings = s.settings :=
    (frame_clearOverrides _ .settings (by decide)).trans (frame_setMode _ _ _ .settings (by decide))
  unfold enterAutonomous repoliced
  dsimp only
  rw [applied, settings]

theorem repoliced_control (c : ModeCause) (s : State) :
    (repoliced c s).control =
      { s.control with
        mode := .autonomous, hostLost := 0, hostLostDue := false, policy := s.settings.readPolicy } := by
  rw [repoliced, applyPolicy_control, clearOverrides, mapPorts_control, setMode, report_control]

theorem repoliced_override (c : ModeCause) (s : State) (p : Port) :
    ((repoliced c s).port p).override = .noOverride := by
  have cleared := clearOverrides_override (setMode .autonomous c s) p
  rw [repoliced, applyPolicy_port]
  generalize (clearOverrides (setMode .autonomous c s)).port p = r at cleared
  exact cleared

/-- The entry into AUTONOMOUS sets the mode, ends the host-lost count and loads the policy (R147, R148). -/
theorem enterAutonomous_modeUnit (c : ModeCause) (s : State) :
    (enterAutonomous c s).control =
      { s.control with
        mode := .autonomous, hostLost := 0, hostLostDue := false, policy := s.settings.readPolicy } := by
  rw [enterAutonomous_eq, show (roleChange _ (repoliced c s)).control = (repoliced c s).control from
    frame_roleChange _ _ .control (by decide), repoliced_control]

/-- Every port then has the role that is stored for it, and no override. -/
theorem enterAutonomous_port (c : ModeCause) (s : State) (p : Port) :
    ((enterAutonomous c s).port p).override = .noOverride ∧
      ((enterAutonomous c s).port p).role = s.settings.readRoles.get p := by
  rw [enterAutonomous_eq]
  refine ⟨?_, (roleChange_all _ _ p).1⟩
  by_cases changed : Changed (fun p => s.settings.readRoles.get p) (repoliced c s) p
  · exact (roleChange_changed changed).1
  · rw [(roleChange_unchanged changed).override]
    exact repoliced_override c s p

/-- The MODE record comes before every other record of the entry (R147, R151). -/
theorem enterAutonomous_first (c : ModeCause) (s : State) :
    (report (.mode s.control.mode .autonomous c) s).reports.queue <+: (enterAutonomous c s).reports.queue := by
  have told : (setMode .autonomous c s).reports = (report (.mode s.control.mode .autonomous c) s).reports :=
    report_reports_congr _ rfl rfl
  rw [← told, enterAutonomous_eq]
  exact ((appends_clearOverrides _).comp ((appends_applyPolicy _ _).comp (appends_roleChange _ _))).1

/-- Settles O13: a due HOST_LOST in MANAGED is the entry into AUTONOMOUS. -/
theorem hostLostFallsToAutonomous : Obligations.HostLostFallsToAutonomous := by
  intro s managed due
  have falls : hostLostEnds s = enterAutonomous .hostLost s := if_pos ⟨due, managed⟩
  have first := enterAutonomous_first .hostLost s
  rw [managed] at first
  exact ⟨_, congrArg Host.Outcome.next falls, frame_enterAutonomous .hostLost s, enterAutonomous_modeUnit .hostLost s,
    enterAutonomous_port .hostLost s, first⟩

/-! ### OVRD -/

theorem exec_ovrd {fields : List Byte} {s t : State} (carried : Carried (0x09 :: fields) s t)
    (managed : t.control.mode = .managed) : exec (.ovrd fields) s = .next (sendReply 0x09 (doOvrd fields t)) :=
  congrArg Host.Outcome.next (request_served (k := .ovrd) carried (by rw [managed]; exact trivial))

theorem overrideOfCode_code (o : Override) : Override.ofCode o.code = some o := by cases o <;> rfl

/-- No code above 2 names an override (R102). -/
theorem overrideOfCode_none {c : Byte} (high : 2 < c.toNat) : Override.ofCode c = none := by
  have other (d : Byte) (low : d.toNat ≤ 2) : c ≠ d := by
    rintro rfl
    exact absurd high (Nat.not_lt.mpr low)
  unfold Override.ofCode
  rw [if_neg (other 0 (by decide)), if_neg (other 1 (by decide)), if_neg (other 2 (by decide))]

theorem doOvrd_named (p : Port) (o : Override) (t : State) : doOvrd [portByte p, o.code] t = ovrdPort p o t := by
  simp only [doOvrd, portOfByte_portByte, overrideOfCode_code]

/-- A byte that names no port or no override is answered RANGE (R163). -/
theorem doOvrd_range {b c : Byte} (bad : 27 < b.toNat ∨ 2 < c.toNat) (t : State) :
    doOvrd [b, c] t = refuse .range t := by
  rcases bad with high | high
  · simp only [doOvrd, portOfByte_none high]
  · simp only [doOvrd, overrideOfCode_none high]
    cases portOfByte b <;> rfl

/-- A present port under an override: the wanted state follows, and the flag follows a changed wanted state (R79, R102,
R123). -/
theorem overridden_eq (o : Override) {r : PortRec} (present : r.present = true) :
    ({ r with override := o } : PortRec).deriveWanted =
      { r with
        override := o
        wanted := wantedOf o r.guard
        pendingFlag :=
          if wantedOf o r.guard = r.wanted then r.pendingFlag
          else
            decide (r.confirmed ≠ some (wantedOf o r.guard)) && decide (r.inFlight ≠ some (wantedOf o r.guard)) } := by
  unfold PortRec.deriveWanted
  dsimp only
  split
  · next same => rw [same]
  · simp only [PortRec.recompute, pendingOf, present, Bool.true_and]

/-- Settles O46: the fields name a port and an override or are answered RANGE, and the override is set on a present port
that is guarded. -/
theorem ovrdSetsTheOverride : Obligations.OvrdSetsTheOverride := by
  intro b c s t carried managed
  rw [exec_ovrd carried managed]
  refine ⟨fun bad => ?_, fun p o port code => ⟨fun unguarded => ?_, fun present guarded => ?_⟩⟩
  · rw [doOvrd_range bad]
    rfl
  · rw [port, code, doOvrd_named, ovrdPort, if_pos unguarded]
    rfl
  · have allowed : ¬ ((t.port p).present = false ∨ (t.port p).role = .unused) := by
      simp [present, guarded]
    have set : setOverride p o t = t.setPort p ({ t.port p with override := o } : PortRec).deriveWanted := rfl
    rw [port, code, doOvrd_named, ovrdPort, if_neg allowed, set, overridden_eq o present]
    dsimp only
    rw [port_setPort_self]
    rfl

end Sys2Proof.Machine
end

section
/-! SUPPORT. The disposal of an inbound record leaves the link as its return to UP made it (R117, R136). -/

namespace Sys2Proof.Machine

/-! ### What no block does to the link -/

/-- What every event but a timeout, a grant or a reset leaves of the link: the link state, the receiver and the pacing
stand, a fault run of 0 stays 0, and no record leaves the report queue. -/
structure LinkHeld (s t : State) : Prop where
  state : t.glink.state = s.glink.state
  rx : t.glink.rx = s.glink.rx
  pacing : t.arbiter.pacing = s.arbiter.pacing
  allowance : t.arbiter.allowance = s.arbiter.allowance
  run : s.arbiter.faultRun = 0 → t.arbiter.faultRun = 0
  queue : s.reports.queue <+: t.reports.queue

theorem LinkHeld.refl (s : State) : LinkHeld s s := ⟨rfl, rfl, rfl, rfl, id, List.prefix_rfl⟩

theorem LinkHeld.trans {s t u : State} (h : LinkHeld s t) (k : LinkHeld t u) : LinkHeld s u where
  state := k.state.trans h.state
  rx := k.rx.trans h.rx
  pacing := k.pacing.trans h.pacing
  allowance := k.allowance.trans h.allowance
  run := k.run ∘ h.run
  queue := h.queue.trans k.queue

theorem LinkHeld.ite {c : Prop} [Decidable c] {s t u : State} (h : LinkHeld s t) (k : LinkHeld s u) :
    LinkHeld s (if c then t else u) := by
  split
  · exact h
  · exact k

/-- An event of the blocks behind the link, which only appends to the report queue. -/
theorem LinkHeld.of_frame {l : List Part} {s t : State} (frame : OnlyChanges l s t) (appends : Appends s t)
    (aside : ∀ a ∈ l, a ∉ [Part.arbiter, .glink]) : LinkHeld s t := by
  have arbiter : t.arbiter = s.arbiter := frame .arbiter fun m => aside _ m (by decide)
  have glink : t.glink = s.glink := frame .glink fun m => aside _ m (by decide)
  exact ⟨by rw [glink], by rw [glink], by rw [arbiter], by rw [arbiter], by rw [arbiter]; exact id, appends.1⟩

/-- A change of the link's transmitter, its outstanding command or its counts. -/
theorem linkHeld_set_glink (s : State) (x : GuardLink) (state : x.state = s.glink.state) (rx : x.rx = s.glink.rx) :
    LinkHeld s { s with glink := x } :=
  ⟨state, rx, rfl, rfl, id, List.prefix_rfl⟩

theorem linkHeld_badPort (s : State) : LinkHeld s (badPort s) := linkHeld_set_glink s _ rfl rfl

theorem linkHeld_digestAtMeter (p : Port) (stamp : Byte) (n : Nat) (s : State) :
    LinkHeld s (digestAtMeter p stamp n s) :=
  .of_frame (frame_digestAtMeter p stamp n s) (appends_digestAtMeter p stamp n s) (by decide)

theorem linkHeld_catchAtProbe (y x : PortField) (r : Round) (d : Identity) (s : State) :
    LinkHeld s (catchAtProbe y x r d s) :=
  .of_frame (frame_catchAtProbe y x r d s) (appends_catchAtProbe y x r d s) (by decide)

theorem linkHeld_linkReport (p : Port) (up : Bool) (s : State) : LinkHeld s (linkReport p up s) :=
  .of_frame (frame_linkReport p up s) (appends_linkReport p up s) (by decide)

/-- A record with a port field, which may name no port. -/
theorem linkHeld_portRecord {act : Port → State → State} (acts : ∀ p t, LinkHeld t (act p t)) (f : PortField)
    (t : State) : LinkHeld t (match portOf f with | some p => act p t | none => badPort t) := by
  split
  · exact acts _ t
  · exact linkHeld_badPort t

/-! ### An ACK -/

theorem linkHeld_ackSeen (s : State) : LinkHeld s (ackSeen s) := ⟨rfl, rfl, rfl, rfl, fun _ => rfl, List.prefix_rfl⟩

theorem linkHeld_strayAck (s : State) : LinkHeld s (strayAck s) := linkHeld_set_glink s _ rfl rfl

theorem linkHeld_endCommand (s : State) : LinkHeld s (endCommand s) := linkHeld_set_glink s _ rfl rfl

theorem linkHeld_handTx (r : OutRecord) (s : State) : LinkHeld s (handTx r s) := by
  rw [handTx_eq]
  exact linkHeld_set_glink s _ rfl rfl

/-- The end of START hands its opening STROBE to the transmitter, and does nothing else to the link (R144). -/
theorem linkHeld_startDone (s : State) : LinkHeld s (startDone s) := by
  have boots : LinkHeld s (booted s) := by
    refine .ite ?_ ?_
    · exact .of_frame (frame_setMode _ _ s) (appends_setMode _ _ s) (by decide)
    · exact .of_frame (frame_enterAutonomous _ s) (appends_enterAutonomous _ s) (by decide)
  have clocked (t : State) (x : IntervalClock) : LinkHeld t { t with clock := x } :=
    .of_frame (frame_set_clock t x) (appends_set_clock t x) (by decide)
  have rounds (t : State) : LinkHeld t (roundSteps t) :=
    .of_frame (frame_roundSteps t) (appends_roundSteps t) (by decide)
  rw [startDone_eq, opened]
  exact ((boots.trans (clocked _ _)).trans (linkHeld_handTx _ _)).trans (rounds _)

theorem linkHeld_sweepAnswered (p : Port) (s : State) : LinkHeld s (sweepAnswered p s) := by
  have left : LinkHeld s (leaveSweep p s) := .of_frame (frame_leaveSweep p s) (appends_leaveSweep p s) (by decide)
  exact .ite (.ite (left.trans (linkHeld_startDone _)) left) (.refl s)

theorem linkHeld_ackEnds (o : Outstanding) (ok up : Bool) (s : State) : LinkHeld s (ackEnds o ok up s) := by
  have confirmed (p : Port) : LinkHeld s (setportConfirmed p s) :=
    .of_frame (frame_setportConfirmed p s) (appends_setportConfirmed p s) (by decide)
  have absent (p : Port) : LinkHeld s (absence p s) := .of_frame (frame_absence p s) (appends_absence p s) (by decide)
  have acked (r : Round) (p : Port) : LinkHeld s (probeAcked r p s) :=
    .of_frame (frame_probeAcked r p s) (appends_probeAcked r p s) (by decide)
  have ended (r : Round) (p : Port) : LinkHeld s (probeEnded r p s) :=
    .of_frame (frame_probeEnded r p s) (appends_probeEnded r p s) (by decide)
  unfold ackEnds
  split
  · exact (LinkHeld.ite ((confirmed _).trans (linkHeld_linkReport ..)) (absent _)).trans (linkHeld_sweepAnswered ..)
  · exact (LinkHeld.ite (acked ..) (ended ..)).trans (linkHeld_linkReport ..)

theorem linkHeld_ackTaken (f : PortField) (ok up : Bool) (s : State) : LinkHeld s (ackTaken f ok up s) := by
  have seen := linkHeld_ackSeen s
  have stray := seen.trans (linkHeld_strayAck _)
  unfold ackTaken
  split
  · exact stray
  · exact .ite ((seen.trans (linkHeld_endCommand _)).trans (linkHeld_ackEnds ..)) stray

/-! ### The return -/

/-- A valid record on an UNRESPONSIVE link returns it, with its report first, before its block disposes of it (R117). -/
theorem inbound_returns {s : State} (k : InboundKind) (f : PortField) {act : State → State}
    (acts : ∀ t, LinkHeld t (act t)) (loaded : s.control.loading = false)
    (unresponsive : s.glink.state = .unresponsive) :
    let t := inbound k f act s
    t.glink.state = .up ∧ t.arbiter.pacing = false ∧ t.arbiter.allowance = false ∧ t.arbiter.faultRun = 0 ∧
      t.glink.rx = .hunt ∧ (report (.linkFaultUp f k) s).reports.queue <+: t.reports.queue := by
  intro t
  have returned : linkReturns f k (recordDone s) =
      { report (.linkFaultUp f k) (recordDone s) with
        glink := { (report (.linkFaultUp f k) (recordDone s)).glink with state := .up }
        arbiter :=
          { (report (.linkFaultUp f k) (recordDone s)).arbiter with
            pacing := false, allowance := false, faultRun := 0 } } :=
    if_pos unresponsive
  have reported : (report (.linkFaultUp f k) (recordDone s)).reports = (report (.linkFaultUp f k) s).reports :=
    report_reports_congr _ rfl rfl
  have held : LinkHeld (linkReturns f k (recordDone s)) t := by
    have run : t = act (linkReturns f k (recordDone s)) := if_neg (by rw [loaded]; decide)
    rw [run]
    exact acts _
  rw [returned] at held
  have hunt := held.rx
  have first := held.queue
  dsimp only at hunt first
  rw [report_glink] at hunt
  rw [reported] at first
  exact ⟨held.state, held.pacing, held.allowance, held.run rfl, hunt, first⟩

/-- Settles O24: the return comes before the record's block, and no block undoes it. -/
theorem validRecordReturnsTheLink : Obligations.ValidRecordReturnsTheLink := by
  intro s f x b n r d ok up loaded unresponsive c k kind
  simp only [List.mem_cons, Prod.mk.injEq, List.not_mem_nil, or_false] at kind
  rcases kind with ⟨rfl, rfl⟩ | ⟨rfl, rfl⟩ | ⟨rfl, rfl⟩ | ⟨rfl, rfl⟩
  case inl =>
    exact ⟨_, rfl, inbound_returns .digest f
      (linkHeld_portRecord (fun p => linkHeld_digestAtMeter p b n.toNat) f) loaded unresponsive⟩
  case inr.inl =>
    exact ⟨_, rfl, inbound_returns .catchRecord f (linkHeld_catchAtProbe f x r d) loaded unresponsive⟩
  case inr.inr.inl =>
    exact ⟨_, rfl, inbound_returns .link f
      (linkHeld_portRecord (fun p => linkHeld_linkReport p up) f) loaded unresponsive⟩
  case inr.inr.inr =>
    exact ⟨_, rfl, inbound_returns .ack f (linkHeld_ackTaken f ok up) loaded unresponsive⟩

end Sys2Proof.Machine
end

section
/-! SUPPORT. The fields of an outbound and of an inbound record (R107, R110, R182). -/

namespace Sys2Proof.Machine

/-! ### A word made of fields -/

section
variable {a b c d e f : Nat} (A : BitVec a) (B : BitVec b) (C : BitVec c) (D : BitVec d) (E : BitVec e) (F : BitVec f)

/-- The bits of a word above its lowest field. -/
theorem extractLsb'_append_above {w len start : Nat} (x : BitVec w) :
    (x ++ A).extractLsb' (start + a) len = x.extractLsb' start len := by
  rw [BitVec.extractLsb'_append_eq_of_le (Nat.le_add_left a start), Nat.add_sub_cancel]

theorem fields_three :
    (A ++ B ++ C).extractLsb' (b + c) a = A ∧ (A ++ B ++ C).extractLsb' c b = B ∧
      (A ++ B ++ C).extractLsb' 0 c = C := by
  refine ⟨?_, ?_, BitVec.extractLsb'_append_eq_right⟩
  · rw [extractLsb'_append_above, BitVec.extractLsb'_append_eq_left]
  · have peeled := extractLsb'_append_above C (len := b) (start := 0) (A ++ B)
    rw [Nat.zero_add] at peeled
    rw [peeled, BitVec.extractLsb'_append_eq_right]

theorem fields_four :
    (A ++ B ++ C ++ D).extractLsb' (b + c + d) a = A ∧ (A ++ B ++ C ++ D).extractLsb' (c + d) b = B ∧
      (A ++ B ++ C ++ D).extractLsb' d c = C ∧ (A ++ B ++ C ++ D).extractLsb' 0 d = D := by
  obtain ⟨first, second, -⟩ := fields_three A B C
  obtain ⟨-, third, fourth⟩ := fields_three (A ++ B) C D
  exact ⟨(extractLsb'_append_above D _).trans first, (extractLsb'_append_above D _).trans second, third, fourth⟩

theorem fields_five :
    (A ++ B ++ C ++ D ++ E).extractLsb' (b + c + d + e) a = A ∧
      (A ++ B ++ C ++ D ++ E).extractLsb' (c + d + e) b = B ∧ (A ++ B ++ C ++ D ++ E).extractLsb' (d + e) c = C ∧
      (A ++ B ++ C ++ D ++ E).extractLsb' e d = D ∧ (A ++ B ++ C ++ D ++ E).extractLsb' 0 e = E := by
  obtain ⟨first, second, third, -⟩ := fields_four A B C D
  obtain ⟨-, fourth, fifth⟩ := fields_three (A ++ B ++ C) D E
  exact ⟨(extractLsb'_append_above E _).trans first, (extractLsb'_append_above E _).trans second,
    (extractLsb'_append_above E _).trans third, fourth, fifth⟩

theorem fields_six :
    (A ++ B ++ C ++ D ++ E ++ F).extractLsb' (b + c + d + e + f) a = A ∧
      (A ++ B ++ C ++ D ++ E ++ F).extractLsb' (c + d + e + f) b = B ∧
      (A ++ B ++ C ++ D ++ E ++ F).extractLsb' (d + e + f) c = C ∧
      (A ++ B ++ C ++ D ++ E ++ F).extractLsb' (e + f) d = D ∧ (A ++ B ++ C ++ D ++ E ++ F).extractLsb' f e = E ∧
      (A ++ B ++ C ++ D ++ E ++ F).extractLsb' 0 f = F := by
  obtain ⟨first, second, third, fourth, -⟩ := fields_five A B C D E
  obtain ⟨-, fifth, sixth⟩ := fields_three (A ++ B ++ C ++ D) E F
  exact ⟨(extractLsb'_append_above F _).trans first, (extractLsb'_append_above F _).trans second,
    (extractLsb'_append_above F _).trans third, (extractLsb'_append_above F _).trans fourth, fifth, sixth⟩

end

/-! ### Outbound records -/

theorem portField_toNat (p : Port) : (portField p).toNat = p.val :=
  Nat.mod_eq_of_lt (p.isLt.trans (by decide))

/-- A STROBE is its kind and its stamp byte. -/
theorem strobe_fields (b : Byte) :
    let w := (OutRecord.strobe b).word
    w.extractLsb' 56 8 = 0x21#8 ∧ w.extractLsb' 48 8 = b ∧ w.extractLsb' 0 48 = 0#48 :=
  fields_three 0x21#8 b 0#48

/-- A SETPORT is its kind, its port and the code of the state. -/
theorem setport_fields (p : Port) (x : SwitchState) :
    let w := (OutRecord.setport p x).word
    w.extractLsb' 56 8 = 0x22#8 ∧ w.extractLsb' 51 5 = portField p ∧ w.extractLsb' 49 2 = x.linkCode ∧
      w.extractLsb' 0 49 = 0#49 :=
  fields_four 0x22#8 (portField p) x.linkCode 0#49

/-- An INJECT is its kind, its port twice, the round and the identity. -/
theorem inject_fields (p : Port) (r : Round) (d : Identity) :
    let w := (OutRecord.inject p r d).word
    w.extractLsb' 56 8 = 0x23#8 ∧ w.extractLsb' 51 5 = portField p ∧ w.extractLsb' 46 5 = portField p ∧
      w.extractLsb' 34 12 = r ∧ w.extractLsb' 2 32 = d ∧ w.extractLsb' 0 2 = 0#2 :=
  fields_six 0x23#8 (portField p) (portField p) r d 0#2

/-! ### Inbound records -/

theorem decodeRecord_digest {w : Record} {p : PortField} {stamp : Byte} {count : BitVec 16}
    (kind : w.extractLsb' 56 8 = 0x11#8) (port : w.extractLsb' 51 5 = p) (taken : w.extractLsb' 40 8 = stamp)
    (broadcasts : w.extractLsb' 24 16 = count) : decodeRecord w = some (.digest p stamp count) := by
  simp only [decodeRecord, kind, port, taken, broadcasts]
  rfl

theorem decodeRecord_catchRecord {w : Record} {y x : PortField} {r : Round} {d : Identity}
    (kind : w.extractLsb' 56 8 = 0x12#8) (ingress : w.extractLsb' 51 5 = y) (egress : w.extractLsb' 46 5 = x)
    (round : w.extractLsb' 34 12 = r) (identity : w.extractLsb' 2 32 = d) :
    decodeRecord w = some (.catchRecord y x r d) := by
  simp only [decodeRecord, kind, ingress, egress, round, identity]
  rfl

theorem linkOfCode_codeOf (x : Bool) : linkOfCode (codeOf x) = some x := by cases x <;> rfl

theorem decodeRecord_link {w : Record} {p : PortField} {up : Bool} (kind : w.extractLsb' 56 8 = 0x13#8)
    (port : w.extractLsb' 51 5 = p) (status : w.extractLsb' 49 2 = codeOf up) :
    decodeRecord w = some (.link p up) := by
  simp only [decodeRecord, kind, port, status, linkOfCode_codeOf]
  rfl

theorem decodeRecord_ack {w : Record} {p : PortField} {ok up : Bool} (kind : w.extractLsb' 56 8 = 0x14#8)
    (port : w.extractLsb' 51 5 = p) (result : w.extractLsb' 49 2 = codeOf ok)
    (status : w.extractLsb' 47 2 = codeOf up) : decodeRecord w = some (.ack p ok up) := by
  simp only [decodeRecord, kind, port, result, status, resultOfCode, linkOfCode_codeOf]
  rfl

/-- An inbound record command is what its record is read as. -/
theorem decodeRecord_encodeRecord {c : Instr} {w : Record} (encoded : encodeRecord c = some w) :
    decodeRecord w = some c := by
  cases c
  case digest p stamp count =>
    cases encoded
    obtain ⟨kind, port, -, taken, broadcasts, -⟩ := fields_six 0x11#8 p 0#3 stamp count 0#24
    exact decodeRecord_digest kind port taken broadcasts
  case catchRecord y x r d =>
    cases encoded
    obtain ⟨kind, ingress, egress, round, identity, -⟩ := fields_six 0x12#8 y x r d 0#2
    exact decodeRecord_catchRecord kind ingress egress round identity
  case link p up =>
    cases encoded
    obtain ⟨kind, port, status, -⟩ := fields_four 0x13#8 p (codeOf up) 0#49
    exact decodeRecord_link kind port status
  case ack p ok up =>
    cases encoded
    obtain ⟨kind, port, result, status, -⟩ := fields_five 0x14#8 p (codeOf ok) (codeOf up) 0#47
    exact decodeRecord_ack kind port result status
  all_goals cases encoded

end Sys2Proof.Machine
end

section
/-! SUPPORT. The clocks of a record at the receiver and from the transmitter, and the characters of a reply (R105, R106,
R110, R111, R152). -/

namespace Sys2Proof.Machine

/-! ### A record on the Guard Link -/

theorem recordClocks_length (w : Record) : (recordClocks w).length = 65 := by
  rw [recordClocks, List.length_cons, List.length_map, recordBits_length]

theorem recordClocks_data (w : Record) {k : Nat} (h : k < 64) :
    (recordClocks w)[k + 1]? = some (false, w.getLsbD (63 - k)) := by
  rw [recordClocks, List.getElem?_cons_succ, List.getElem?_map, recordBits_get w h]
  rfl

/-- The 64th data bit completes the record that the bits spell (R106). -/
theorem rxRun_complete {bits : List Bool} (whole : bits.length = 64) :
    rxRun (.receiving []) (bits.map fun b => (false, b)) = ⟨.hunt, 0, [recordOfBits bits]⟩ := by
  obtain ⟨got, last, rfl⟩ : ∃ got last, bits = got ++ [last] :=
    (List.eq_nil_or_concat' bits).resolve_left (by rintro rfl; cases whole)
  have short : got.length = 63 := by simpa using whole
  have kept := rxRun_data got [] (by simp [short])
  have done : rxClock (.receiving got) false last = ⟨.hunt, 0, [recordOfBits (got ++ [last])]⟩ := by
    simp [rxClock, short]
  rw [List.nil_append] at kept
  rw [List.map_append, rxRun_append, kept, List.map_singleton, rxRun_cons, done]
  rfl

/-- The receiver takes the clocks of a record as that record (R105, R106). -/
theorem rxRun_recordClocks {rx : LinkRx} (idle : rx = .hunt ∨ rx = .receiving []) (w : Record) :
    rxRun rx (recordClocks w) = ⟨.hunt, 0, [w]⟩ := by
  have sync : rxClock rx true false = ⟨.receiving [], 0, []⟩ := by rcases idle with rfl | rfl <;> rfl
  rw [recordClocks, rxRun_cons, sync, rxRun_complete (recordBits_length w), recordOfBits_recordBits]
  rfl

/-! ### The transmitter -/

theorem linkLevels_idle {s : State} (sending : s.glink.sending = none) (waiting : s.glink.waiting = none) (k : Nat) :
    s.linkLevels k = (false, false) := by
  simp only [State.linkLevels, sending, waiting]
  rfl

/-- The levels are those of the record being sent for its 65 clocks, and then those of the waiting one (R111). -/
theorem linkLevels_sending {s : State} {a : OutRecord} (sending : s.glink.sending = some a) (k : Nat) :
    s.linkLevels k =
      if k < 65 then (recordClocks a.word).getD k (false, false)
      else ((s.glink.waiting.map fun b => recordClocks b.word).getD []).getD (k - 65) (false, false) := by
  have clocks : s.linkLevels k =
      (recordClocks a.word ++ (s.glink.waiting.map fun b => recordClocks b.word).getD []).getD k (false, false) := by
    simp only [State.linkLevels, sending]
    cases s.glink.waiting <;> simp
  rw [clocks]
  split
  · next early => rw [List.getD_append _ _ _ _ (by rw [recordClocks_length]; exact early)]
  · next late =>
    rw [List.getD_append_right _ _ _ _ (by rw [recordClocks_length]; exact Nat.not_lt.mp late), recordClocks_length]

/-! ### Characters -/

theorem charBits_length (b : Byte) : (charBits b).length = 10 := rfl

theorem charBits_data (b : Byte) {i : Nat} (h : i < 8) : (charBits b)[i + 1]? = some (b.getLsbD i) := by
  simp [charBits, List.getElem?_append, h]

/-- Eight data bits spell the byte whose bits they are, the least significant first (R152). -/
theorem ofBoolListLE_bits (b : Byte) : BitVec.ofBoolListLE ((List.range 8).map fun k => b.getLsbD k) = b := by
  refine BitVec.eq_of_getLsbD_eq fun i below => ?_
  have low : i < 8 := below
  rw [BitVec.getLsbD_ofBoolListLE, List.getD_eq_getElem?_getD, List.getElem?_map, List.getElem?_range low]
  rfl

/-- A character whose stop bit is low has the framing fault (R152). -/
theorem charOfBits_stop (b : Byte) (stop : Bool) : charOfBits ((charBits b).dropLast ++ [stop]) = some (b, !stop) := by
  have read : charOfBits ((charBits b).dropLast ++ [stop]) =
      some (BitVec.ofBoolListLE ((List.range 8).map fun k => b.getLsbD k), !stop) := rfl
  exact read.trans (congrArg (fun c : Byte => some (c, !stop)) (ofBoolListLE_bits b))

/-- Position `n * j + i` of a list of pieces of `n` elements each is position `i` of piece `j`. -/
theorem getElem?_flatMap_uniform {α β : Type} {f : α → List β} {n : Nat} (size : ∀ a, (f a).length = n) {i : Nat}
    (h : i < n) : ∀ (l : List α) (j : Nat), (l.flatMap f)[n * j + i]? = l[j]?.bind fun a => (f a)[i]?
  | [], j => by simp
  | a :: l, 0 => by
    rw [List.flatMap_cons, Nat.mul_zero, Nat.zero_add, List.getElem?_append_left (by rw [size]; exact h)]
    rfl
  | a :: l, j + 1 => by
    rw [List.flatMap_cons, Nat.mul_succ, List.getElem?_append_right (by rw [size]; omega), size,
      show n * j + n + i - n = n * j + i by omega, getElem?_flatMap_uniform size h l j]
    rfl

/-- MTXD stands at the stop level while no reply is sent (R152, R155). -/
theorem mtxdLevel_quiet {s : State} (quiet : ∀ body, s.mgmt.line ≠ .sending body) (k : Nat) :
    s.mtxdLevel k = true := by
  have none : s.mtxd = none := by
    unfold State.mtxd
    split
    · next body sending => exact absurd sending (quiet body)
    · rfl
    · rfl
  rw [State.mtxdLevel, none]
  rfl

/-- MTXD carries the characters of a reply back to back (R152, R155). -/
theorem mtxdLevel_sending {s : State} {body : List Byte} {j i : Nat} {b : Byte} (sending : s.mgmt.line = .sending body)
    (char : (frameBytes body)[j]? = some b) (h : i < 10) :
    (charBits b)[i]? = some (s.mtxdLevel (10 * j + i)) := by
  have carried : s.mtxdLevel (10 * j + i) = ((charBits b)[i]?).getD true := by
    have place := getElem?_flatMap_uniform charBits_length h (frameBytes body) j
    rw [char, Option.bind_some] at place
    rw [State.mtxdLevel, show s.mtxd = some (frameBytes body) by simp only [State.mtxd, sending], Option.getD_some,
      List.getD_eq_getElem?_getD, place]
  rw [carried, List.getElem?_eq_getElem (by rw [charBits_length]; exact h)]
  rfl

/-! ### The statement -/

/-- Settles O50: the words by their fields, the receiver and the transmitter by the clocks of a record, and the
characters by their ten bits. -/
theorem recordsAndCharactersOnTheLines : Obligations.RecordsAndCharactersOnTheLines := by
  refine ⟨strobe_fields, fun p x => ?_, fun p r d => ?_, fun c w => decodeRecord_encodeRecord,
    fun rx w idle => rxRun_recordClocks idle w, fun w => ⟨recordClocks_length w, rfl, fun k => recordClocks_data w⟩,
    fun s k => ⟨fun sending waiting => linkLevels_idle sending waiting k, fun a sending => ?_⟩, fun b => ?_,
    fun s k => ⟨fun quiet => mtxdLevel_quiet quiet k, fun body sending j i b char h place => ?_⟩⟩
  · obtain ⟨kind, port, code, rest⟩ := setport_fields p x
    exact ⟨kind, (congrArg BitVec.toNat port).trans (portField_toNat p), code.trans (by cases x <;> rfl), rest⟩
  · obtain ⟨kind, first, second, round, identity, rest⟩ := inject_fields p r d
    exact ⟨kind, (congrArg BitVec.toNat first).trans (portField_toNat p),
      (congrArg BitVec.toNat second).trans (portField_toNat p), round, identity, rest⟩
  · rw [linkLevels_sending sending]
    refine ⟨fun early => if_pos early, fun waiting late => ?_, fun b waiting late => ?_⟩
    · rw [if_neg (Nat.not_lt.mpr late), waiting]
      rfl
    · rw [if_neg (Nat.not_lt.mpr late), waiting]
      rfl
  · exact ⟨charOfBits_stop b true, charOfBits_stop b false, rfl, rfl, fun i => charBits_data b⟩
  · rw [place]
    exact mtxdLevel_sending sending char h

end Sys2Proof.Machine
end

section
/-! SUPPORT. The last bit of a record being sent (R110, R112). -/

namespace Sys2Proof.Machine

/-- Settles O31: the record being sent says which of the two last bits it has. -/
theorem lastBits : Obligations.LastBits := by
  refine ⟨fun s a sending command => ?_, fun s b sending => ?_⟩
  · have sent : exec .commandLastBit s = .next (commandSent s) := by
      show execCommandLastBit s = _
      cases a with
      | strobe b => cases command
      | setport p w => simp only [execCommandLastBit, sending]
      | inject p r d => simp only [execCommandLastBit, sending]
    exact sent
  · have sent : exec .strobeLastBit s = .next (strobeSent s) := by
      show execStrobeLastBit s = _
      simp only [execStrobeLastBit, sending]
    exact sent

end Sys2Proof.Machine
end

section
/-! SUPPORT. The choice of the next grant by class and search (R124 to R126), and a grant of a SETPORT (R127). -/

namespace Sys2Proof.Machine

/-! ### The grant of a SETPORT -/

theorem exec_setport {s : State} {p : Port} (grant : nextGrant s = some (.setport p)) :
    exec .setport s = .next (grantSetport p s) := by
  show execSetport s = _
  simp only [execSetport, grant]

/-- With the wanted state in flight nothing is owed to the port. -/
theorem recompute_inFlight_wanted (r : PortRec) :
    ({ r with inFlight := some r.wanted } : PortRec).recompute =
      { r with inFlight := some r.wanted, pendingFlag := false } := by
  have clear : pendingOf { r with inFlight := some r.wanted } = false := by simp [pendingOf]
  rw [PortRec.recompute, clear]

theorem port_grantSetport (p q : Port) (s : State) :
    (grantSetport p s).port q =
      if q = p then { s.port p with inFlight := some (s.port p).wanted, pendingFlag := false } else s.port q := by
  rw [grantSetport_eq, ← recompute_inFlight_wanted]
  exact port_setPort s p q _

/-- Settles O28: the marker is the wanted state, so the flag is clear, and the record goes to the transmitter. -/
theorem setportGrant : Obligations.SetportGrant := by
  intro s p grant
  refine ⟨grantSetport p s, exec_setport grant, frame_grantSetport p s, ?_, fun q other => ?_, ?_, ?_⟩
  · rw [port_grantSetport, if_pos rfl]
  · rw [port_grantSetport, if_neg other]
  · rw [grantSetport_eq]
    exact useAllowance_eq _
  · rw [grantSetport_eq]

/-! ### The classes (R124) -/

theorem classOf_clear {r : PortRec} (clear : r.pendingFlag = false) : classOf r = none := by
  simp only [classOf, clear, Bool.false_eq_true, if_false]

theorem classOf_unknown {r : PortRec} (pending : r.pendingFlag = true) (unknown : r.confirmed = none) :
    classOf r = some .tightening := by
  simp only [classOf, pending, unknown, if_true]

/-- Wanting more than the switch chip has confirmed is tightening. -/
theorem classOf_tightening {r : PortRec} {c : SwitchState} (pending : r.pendingFlag = true)
    (confirmed : r.confirmed = some c) (more : c.rank < r.wanted.rank) : classOf r = some .tightening := by
  simp only [classOf, pending, confirmed, more, if_true]

/-- Wanting less than the switch chip has confirmed is loosening. -/
theorem classOf_loosening {r : PortRec} {c : SwitchState} (pending : r.pendingFlag = true)
    (confirmed : r.confirmed = some c) (less : r.wanted.rank < c.rank) : classOf r = some .loosening := by
  simp only [classOf, pending, confirmed, Nat.lt_asymm less, less, if_true, if_false]

/-! ### The search (R126) -/

/-- A port's distance from the port after the pointer, wrapping, is its place in the search order. -/
theorem searchOrder_place (pointer p : Port) : pointer + 1 + (p - (pointer + 1)) = p := add_sub_cancel _ _

/-- The port of the class that is nearest after the pointer is found. -/
theorem search_nearest {c : SetportClass} {s : State} {p : Port} (here : classOf (s.port p) = some c)
    (nearest : ∀ q, classOf (s.port q) = some c →
      (p - (s.arbiter.pointer + 1)).val ≤ (q - (s.arbiter.pointer + 1)).val) :
    search c s = some p := by
  have place := searchOrder_place s.arbiter.pointer p
  have found : (List.finRange 28).find?
      ((fun q => decide (classOf (s.port q) = some c)) ∘ fun k => s.arbiter.pointer + 1 + k) =
        some (p - (s.arbiter.pointer + 1)) := by
    refine find_lowest ?_ fun k before => ?_
    · simpa only [Function.comp_apply, place, decide_eq_true_eq] using here
    · simp only [Function.comp_apply, decide_eq_false_iff_not]
      intro member
      have far := nearest _ member
      rw [add_sub_cancel_left] at far
      exact Nat.not_le.mpr before far
  rw [search, searchOrder, List.find?_map, found, Option.map_some, place]

theorem search_none {c : SetportClass} {s : State} (no : ∀ q, classOf (s.port q) ≠ some c) : search c s = none :=
  List.find?_eq_none.mpr fun q _ => by simpa only [decide_eq_true_eq] using no q

/-! ### The choice (R125) -/

theorem canGrant_iff {s : State} :
    canGrant s = true ↔ s.control.loading = false ∧ s.glink.outstanding = none ∧
      (s.arbiter.pacing = true → s.arbiter.allowance = true) := by
  simp only [canGrant, Bool.and_eq_true, Bool.or_eq_true, Bool.not_eq_true', Option.isNone_iff_eq_none, and_assoc,
    ← Bool.not_eq_true, imp_iff_not_or]

theorem nextGrant_tightening {s : State} {p : Port} (can : canGrant s = true)
    (found : search .tightening s = some p) : nextGrant s = some (.setport p) := by
  simp only [nextGrant, can, found, if_true]

theorem nextGrant_head {s : State} {p : Port} {rest : List Port} (can : canGrant s = true)
    (relaxed : search .tightening s = none) (list : s.probe.list = p :: rest) : nextGrant s = some (.probe p) := by
  simp only [nextGrant, can, relaxed, list, if_true]

/-- With no tightening port and no probe the loosening search alone chooses. -/
theorem nextGrant_loosening {s : State} (can : canGrant s = true) (relaxed : search .tightening s = none)
    (list : s.probe.list = []) : nextGrant s = (search .loosening s).map .setport := by
  simp only [nextGrant, can, relaxed, list, if_true]
  cases search .loosening s <;> rfl

/-- Settles O29: the classes compare the confirmed with the wanted state, and the choice takes the nearest port of the
first class that has a candidate. -/
theorem grantChoice : Obligations.GrantChoice := by
  refine ⟨fun r => ⟨classOf_clear, fun pending => ⟨classOf_unknown pending, fun confirmed wanted => ?_,
    fun confirmed wanted => ?_, fun confirmed wanted => ?_, fun confirmed wanted => ?_⟩⟩,
    fun s loaded idle paced => ?_, fun s withheld => ?_⟩
  · refine classOf_tightening pending confirmed ?_
    obtain wanted | wanted := wanted <;> rw [wanted] <;> decide
  · exact classOf_tightening pending confirmed (by rw [wanted]; decide)
  · exact classOf_loosening pending confirmed (by rw [wanted]; decide)
  · refine classOf_loosening pending confirmed ?_
    obtain wanted | wanted := wanted <;> rw [wanted] <;> decide
  · have can : canGrant s = true := canGrant_iff.mpr ⟨loaded, idle, paced⟩
    refine ⟨fun p here nearest => nextGrant_tightening can (search_nearest here nearest), fun no =>
      ⟨fun p rest list => nextGrant_head can (search_none no) list, fun list => ?_⟩⟩
    rw [nextGrant_loosening can (search_none no) list]
    refine ⟨fun p here nearest => ?_, fun no => ?_⟩
    · rw [search_nearest here nearest, Option.map_some]
    · rw [search_none no, Option.map_none]
  · refine if_neg fun can => ?_
    obtain ⟨-, idle, paced⟩ := canGrant_iff.mp can
    obtain busy | ⟨pacing, used⟩ := withheld
    · exact busy idle
    · exact absurd (used.symm.trans (paced pacing)) (by decide)

end Sys2Proof.Machine
end

section
/-! SUPPORT. The report queue over every step (R166, R168, R171): every command but a reset, FETCH and ACKGAP only adds
records to it, and a removal or a resumption leaves it within its size. -/

namespace Sys2Proof.Machine

theorem Appends.ite {c : Prop} [Decidable c] {s t u : State} (h : Appends s t) (k : Appends s u) :
    Appends s (if c then t else u) := by
  split
  · exact h
  · exact k

/-! ### Inbound records -/

theorem appends_sweepAnswered (p : Port) (s : State) : Appends s (sweepAnswered p s) :=
  .ite (.ite ((appends_leaveSweep p s).comp (appends_startDone _)) (appends_leaveSweep p s)) (.refl s)

theorem appends_ackEnds (o : Outstanding) (ok up : Bool) (s : State) : Appends s (ackEnds o ok up s) := by
  unfold ackEnds
  split
  · exact (Appends.ite ((appends_setportConfirmed _ s).comp (appends_linkReport _ _ _)) (appends_absence _ s)).comp
      (appends_sweepAnswered _ _)
  · exact (Appends.ite (appends_probeAcked _ _ s) (appends_probeEnded _ _ s)).comp (appends_linkReport _ _ _)

theorem appends_ackTaken (f : PortField) (ok up : Bool) (s : State) : Appends s (ackTaken f ok up s) := by
  have stray : Appends s (strayAck (ackSeen s)) := .of_reports rfl
  unfold ackTaken
  split
  · exact stray
  · exact .ite (((appends_ackSeen s).comp (appends_endCommand _)).comp (appends_ackEnds _ _ _ _)) stray

/-- A valid record adds what the link's return to UP and the record's block add. -/
theorem appends_inbound (k : InboundKind) (f : PortField) {act : State → State} (acts : ∀ t, Appends t (act t))
    (s : State) : Appends s (inbound k f act s) := by
  have done : Appends s (recordDone s) := .of_reports rfl
  exact .ite done ((done.comp (appends_linkReturns f k _)).comp (acts _))

/-- The same for a record with a port field, which may name no port. -/
theorem appends_record (k : InboundKind) (f : PortField) {act : Port → State → State}
    (acts : ∀ p t, Appends t (act p t)) (s : State) :
    Appends s (inbound k f (fun t => match portOf f with | some p => act p t | none => badPort t) s) := by
  refine appends_inbound k f (fun t => ?_) s
  split
  · exact acts _ t
  · exact .of_reports rfl

/-! ### Removals and resumptions -/

/-- A resumption appends its GAP record below half the size, and ends the overflow with its marks clear (R171). -/
theorem queueFits_judgeResumption {s : State} (h : QueueFits s) : QueueFits (judgeResumption s) := by
  unfold judgeResumption
  split
  · next half =>
    have room : s.reports.queue.length < 64 := Nat.lt_of_le_of_lt half (by decide)
    have told := report_room (.gap s.reports.lost)
      (s := { s with reports := { s.reports with overflow := false, acknowledged := false } }) rfl room
    dsimp only
    rw [told]
    exact ⟨by simpa using room, Nat.zero_le _, fun _ => ⟨rfl, rfl⟩⟩
  · exact h

theorem queueFits_fetchState (n : Nat) {s : State} (h : QueueFits s) : QueueFits (fetchState n s) := by
  have dropped : QueueFits { s with reports := { s.reports with queue := s.reports.queue.drop n } } :=
    ⟨(List.drop_sublist n _).length_le.trans h.size, h.lost, h.clear⟩
  unfold fetchState
  dsimp only
  split
  · exact queueFits_judgeResumption dropped
  · exact dropped

theorem queueFits_acknowledge {s : State} (h : QueueFits s) : QueueFits (acknowledge s) := by
  unfold acknowledge
  split
  · next overflow =>
    refine queueFits_judgeResumption ⟨h.size, h.lost, fun none => ?_⟩
    exact absurd (overflow.symm.trans none) (by decide)
  · exact h

/-! ### Requests -/

theorem appends_modeTo (m : Mode) (s : State) : Appends s (modeTo m s).state := by
  unfold modeTo
  split
  · exact .refl s
  · cases m with
    | autonomous => exact appends_enterAutonomous _ s
    | managed => exact appends_setMode _ _ s
    | rest =>
      dsimp only
      split
      · exact appends_setMode _ _ s
      · exact .refl s
    | start => exact .refl s

theorem appends_doMode (fields : List Byte) (s : State) : Appends s (doMode fields s).state := by
  unfold doMode
  split
  · split
    · exact appends_modeTo _ s
    · exact .refl s
  · exact .refl s

theorem appends_doRoles (fields : List Byte) (s : State) : Appends s (doRoles fields s).state := by
  unfold doRoles
  split
  · exact .refl s
  · split
    · exact .refl s
    · split
      · unfold rolesCodes
        split
        · exact .refl s
        · exact appends_roleChange _ s
      · exact .refl s

theorem appends_doWatch (fields : List Byte) (s : State) : Appends s (doWatch fields s).state := by
  unfold doWatch
  split
  · split
    · exact .refl s
    · split
      · exact .refl s
      · exact appends_set_watch s _
  · exact .refl s

theorem appends_doExtend (fields : List Byte) (s : State) : Appends s (doExtend fields s).state := by
  unfold doExtend
  split
  · split
    · exact .refl s
    · split
      · exact .refl s
      · exact appends_set_watch s _
  · exact .refl s

theorem appends_doUnwatch (fields : List Byte) (s : State) : Appends s (doUnwatch fields s).state := by
  unfold doUnwatch
  split
  · split
    · exact .refl s
    · exact (appends_report _ s).comp (appends_set_watch _ none)
  · exact .refl s

/-- What the owning block of a request makes of the queue: only FETCH and ACKGAP may remove a record or end an
overflow. -/
theorem queueFits_act (k : RequestKind) (fields : List Byte) {s : State} (h : QueueFits s) :
    QueueFits (k.act fields s).state := by
  have frame := frame_requestAct k fields s
  cases k with
  | fetch =>
    show QueueFits (doFetch fields s).state
    unfold doFetch
    split
    · exact queueFits_fetchState _ h
    · exact h
  | ackgap =>
    show QueueFits (doAckgap fields s).state
    unfold doAckgap
    split
    · exact queueFits_acknowledge h
    · exact h
  | mode => exact (appends_doMode fields s).2 h
  | roles => exact (appends_doRoles fields s).2 h
  | watch => exact (appends_doWatch fields s).2 h
  | extend => exact (appends_doExtend fields s).2 h
  | unwatch => exact (appends_doUnwatch fields s).2 h
  | _ => exact h.congr (frame .reports (by decide))

theorem queueFits_ifServed (k : RequestKind) (fields : List Byte) {s : State} (h : QueueFits s) :
    QueueFits (ifServed k (k.act fields) s).state := by
  unfold ifServed
  split
  · exact queueFits_act k fields h
  · exact h

/-- A request frame, carried out or refused as busy. -/
theorem queueFits_request (kind : Byte) (fields : List Byte) {act : State → Answer}
    (acts : ∀ t, QueueFits t → QueueFits (act t).state) {s : State} (h : QueueFits s) :
    QueueFits (request kind fields act s) := by
  unfold request
  split
  · split
    · exact (acts _ ((appends_takeFrame _ s).2 h)).congr rfl
    · exact (appends_frameBusy kind s).2 h
  · exact h

theorem queueFits_serve (body : List Byte) {s : State} (h : QueueFits s) : QueueFits (serve body s) := by
  unfold serve
  split
  · exact h
  · next kind fields =>
    have taken : QueueFits (takeFrame (kind :: fields) s) := (appends_takeFrame _ s).2 h
    refine QueueFits.congr ?_ (frame_sendReply _ _ .reports (by decide))
    unfold answerTo
    split
    · exact queueFits_ifServed _ _ taken
    · exact taken

theorem queueFits_judgeComplete {s : State} (h : QueueFits s) : QueueFits (judgeComplete s) := by
  unfold judgeComplete
  split
  · exact h
  · have judged := h.congr (t := { s with mgmt := { s.mgmt with complete := none } }) rfl
    unfold judgeFrame
    split
    · exact (appends_frameCheckFails _).2 judged
    · split
      · exact queueFits_serve _ judged
      · exact (appends_frameBusy _ _).2 judged

theorem appends_keyRead (c : Instr) (s : State) : Appends s (keyRead c s) := by
  unfold keyRead
  split
  · exact appends_sampleKey _ s
  · exact appends_sampleKey _ s
  · exact appends_sampleKey _ s
  · exact .refl s

/-! ### Every command -/

theorem queueFits_resetTo (c : ResetCause) (baud : Bool) (s : State) : QueueFits (resetTo c baud s) :=
  queueFits_reset.congr rfl

/-- A command that leaves the Report Unit. -/
theorem queueFits_aside {c : Instr} {s t : State} (h : QueueFits s) (aside : Part.reports ∉ touches c)
    (run : exec c s = .next t) : QueueFits t := by
  obtain ⟨u, run', frame⟩ := exec_frame c s
  cases run.symm.trans run'
  exact h.congr (frame .reports aside)

theorem exec_queueFits (c : Instr) {s t : State} (h : QueueFits s) (run : exec c s = .next t) : QueueFits t := by
  cases requested : requestOf c with
  | some asked =>
    obtain ⟨k, run'⟩ := exec_request requested s
    cases run.symm.trans run'
    exact queueFits_request _ _ (fun _ => queueFits_ifServed k _) ((appends_keyRead c s).2 h)
  | none =>
    cases c
    case powerReset baud => cases run; exact queueFits_resetTo _ _ s
    case pinReset baud => cases run; exact queueFits_resetTo _ _ s
    case intervalEvent =>
      cases run
      exact (Appends.ite (.refl s) ((appends_settleInterval s).comp (appends_intervalTick _))).2 h
    case roundStart =>
      cases run
      exact (Appends.ite ((appends_expireDue s).comp (appends_takeRound _)) (.refl s)).2 h
    case probeExpiry =>
      cases run
      split
      · exact h
      · exact (appends_expireSlot _ s).2 h
    case throttleHoldExpiry p =>
      cases run
      exact (Appends.ite ((appends_lowerPortsEnd p s).comp (appends_throttleEnds p _)) (.refl s)).2 h
    case holdExpiry p =>
      cases run
      exact (Appends.ite ((appends_lowerPortsEnd p s).comp (appends_holdEnds p _)) (.refl s)).2 h
    case hostLost => cases run; exact (appends_hostLostEnds s).2 h
    case digest f stamp n =>
      cases run
      exact (appends_record .digest f (fun p t => appends_digestAtMeter p stamp n.toNat t) s).2 h
    case catchRecord y x r d =>
      cases run
      exact (appends_inbound .catchRecord y (appends_catchAtProbe y x r d) s).2 h
    case link f up =>
      cases run
      exact (appends_record .link f (fun p t => appends_linkReport p up t) s).2 h
    case ack f ok up => cases run; exact (appends_inbound .ack f (appends_ackTaken f ok up) s).2 h
    case ackTimeout =>
      cases run
      split
      · exact (Appends.ite (appends_commandTimeout _ s) (.refl s)).2 h
      · exact h
    case character b stop =>
      cases run
      exact queueFits_judgeComplete (((appends_sampleKey _ s).comp (appends_receiveChar _ _ _)).2 h)
    case replyEnd baud =>
      cases run
      split
      · split
        · exact queueFits_resetTo _ _ s
        · exact (appends_replyEnds s).2 h
      · exact h
    case unknown kind fields =>
      cases run
      split
      · exact h
      · exact queueFits_request _ _ (fun _ ht => ht) h
    case writeCompletion took => cases run; exact (appends_writeEnds took s).2 h
    case keyFall => cases run; exact (appends_keyFalls s).2 h
    case stat | portq | fetch | ackgap | trapclr | mode | lesson | reset | setp | roles | ovrd | store | watch | extend
        | unwatch => cases requested
    all_goals exact queueFits_aside h (by simp [touches]) run

end Sys2Proof.Machine
end

section
/-! SUPPORT. The Management Line over every step (R140, R153 to R155): what the receiver has heard fits LEN, every
judgement of a frame ends with a reply or a REJECT on the line, and nothing else touches the line. -/

namespace Sys2Proof.Machine

/-! ### What the form of the line depends on -/

/-- The form of the line depends on the Management Line Interface alone. -/
theorem LineFits.congr {s t : State} (h : LineFits s) (e : t.mgmt = s.mgmt) : LineFits t :=
  ⟨e ▸ h.judged, e ▸ h.answered, e ▸ h.body, e ▸ h.check, e ▸ h.reject, e ▸ h.reset⟩

theorem LineFits.of_part {l : List Part} {s t : State} (h : LineFits s) (frame : OnlyChanges l s t)
    (aside : Part.mgmt ∉ l) : LineFits t := h.congr (frame .mgmt aside)

/-- While something is being sent, the form of the line is that of its receiver: a REJECT waits behind the reply, and a
reset for its end. -/
theorem LineFits.sending {s t : State} (h : LineFits s) (rx : t.mgmt.rx = s.mgmt.rx)
    (complete : t.mgmt.complete = s.mgmt.complete) {body : List Byte} (line : t.mgmt.line = .sending body) :
    LineFits t where
  judged := complete.trans h.judged
  answered := by rw [line]; exact nofun
  body := rx ▸ h.body
  check := rx ▸ h.check
  reject _ := by rw [line]; exact nofun
  reset _ := by rw [line]; exact nofun

/-- The receiver goes on to a state whose bytes fit LEN, and only counts change beside it. -/
theorem LineFits.received {s t : State} (h : LineFits s) (complete : t.mgmt.complete = none)
    (line : t.mgmt.line = s.mgmt.line) (reject : t.mgmt.reject = s.mgmt.reject)
    (reset : t.mgmt.resetOwed = s.mgmt.resetOwed)
    (body : ∀ n got, t.mgmt.rx = .body n got → got.length < n ∧ n ≤ 200)
    (check : ∀ body first, t.mgmt.rx = .check body first → 1 ≤ body.length ∧ body.length ≤ 200) :
    LineFits t where
  judged := complete
  answered := line ▸ h.answered
  body := body
  check := check
  reject := reject ▸ line ▸ h.reject
  reset := reset ▸ line ▸ h.reset

/-- The receiver back in HUNT, and only counts changed beside it. -/
theorem LineFits.hunting {s t : State} (h : LineFits s) (complete : t.mgmt.complete = none)
    (line : t.mgmt.line = s.mgmt.line) (reject : t.mgmt.reject = s.mgmt.reject)
    (reset : t.mgmt.resetOwed = s.mgmt.resetOwed) (rx : t.mgmt.rx = .hunt) : LineFits t :=
  h.received complete line reject reset (by rw [rx]; exact nofun) (by rw [rx]; exact nofun)

/-- A change of the counts alone. -/
theorem LineFits.counted {s t : State} (h : LineFits s) (complete : t.mgmt.complete = s.mgmt.complete)
    (line : t.mgmt.line = s.mgmt.line) (reject : t.mgmt.reject = s.mgmt.reject)
    (reset : t.mgmt.resetOwed = s.mgmt.resetOwed) (rx : t.mgmt.rx = s.mgmt.rx) : LineFits t :=
  h.received (complete.trans h.judged) line reject reset (rx ▸ h.body) (rx ▸ h.check)

/-! ### Replies and REJECTs -/

/-- A REJECT is sent on a line that is IDLE, and waits behind a reply otherwise (R155). -/
theorem lineFits_oweReject (r : Reject) {s : State} (h : LineFits s) : LineFits (oweReject r s) := by
  unfold oweReject
  split
  · exact h.sending rfl rfl rfl
  · next busy => exact { h with reject := fun _ => busy }
  · exact h

theorem lineFits_frameTruncated {s : State} (h : LineFits s) : LineFits (frameTruncated s) :=
  lineFits_oweReject _ (h.hunting h.judged rfl rfl rfl rfl)

theorem lineFits_frameCheckFails {s : State} (h : LineFits s) : LineFits (frameCheckFails s) :=
  lineFits_oweReject _ (h.counted rfl rfl rfl rfl rfl)

theorem lineFits_frameBusy (kind : Byte) {s : State} (h : LineFits s) : LineFits (frameBusy kind s) :=
  lineFits_oweReject _ (h.counted rfl rfl rfl rfl rfl)

/-- The end of a reply that no reset follows (R155). -/
theorem lineFits_replyEnds {s : State} (h : LineFits s) (owed : ¬ s.mgmt.resetOwed = true) :
    LineFits (replyEnds s) := by
  unfold replyEnds
  split
  · exact h.sending rfl rfl rfl
  · next empty =>
    exact { h with
      answered := nofun
      reject := fun waits => absurd empty waits
      reset := fun reset => absurd reset owed }

/-! ### Requests -/

/-- The owning block of a request leaves the receiver alone. -/
theorem act_receiver (k : RequestKind) (fields : List Byte) (s : State) :
    (k.act fields s).state.mgmt.rx = s.mgmt.rx ∧ (k.act fields s).state.mgmt.complete = s.mgmt.complete := by
  have frame := frame_requestAct k fields s
  cases k with
  | stat =>
    show (doStat fields s).state.mgmt.rx = _ ∧ (doStat fields s).state.mgmt.complete = _
    unfold doStat
    split
    · exact ⟨rfl, rfl⟩
    · split
      · exact ⟨rfl, rfl⟩
      · split <;> exact ⟨rfl, rfl⟩
    · exact ⟨rfl, rfl⟩
  | reset =>
    show (doReset fields s).state.mgmt.rx = _ ∧ (doReset fields s).state.mgmt.complete = _
    unfold doReset
    split <;> exact ⟨rfl, rfl⟩
  | _ =>
    rw [frame .mgmt (by decide)]
    exact ⟨rfl, rfl⟩

theorem ifServed_receiver (k : RequestKind) (fields : List Byte) (s : State) :
    (ifServed k (k.act fields) s).state.mgmt.rx = s.mgmt.rx ∧
      (ifServed k (k.act fields) s).state.mgmt.complete = s.mgmt.complete := by
  unfold ifServed
  split
  · exact act_receiver k fields s
  · exact ⟨rfl, rfl⟩

/-- A frame that is taken leaves the receiver alone (R154). -/
theorem takeFrame_receiver (body : List Byte) (s : State) :
    (takeFrame body s).mgmt.rx = s.mgmt.rx ∧ (takeFrame body s).mgmt.complete = s.mgmt.complete := by
  have kept : (hostLostEnds s).mgmt = s.mgmt := frame_hostLostEnds s .mgmt (by decide)
  unfold takeFrame
  dsimp only
  rw [kept]
  exact ⟨rfl, rfl⟩

/-- A request that is taken and carried out leaves its reply on the line. -/
theorem lineFits_answered (kind : Byte) (body : List Byte) {act : State → Answer}
    (acts : ∀ t, (act t).state.mgmt.rx = t.mgmt.rx ∧ (act t).state.mgmt.complete = t.mgmt.complete) {s : State}
    (h : LineFits s) : LineFits (sendReply kind (act (takeFrame body s))) := by
  obtain ⟨takenRx, takenComplete⟩ := takeFrame_receiver body s
  obtain ⟨rx, complete⟩ := acts (takeFrame body s)
  exact h.sending (rx.trans takenRx) (complete.trans takenComplete) rfl

/-- A request frame, carried out or refused as busy. -/
theorem lineFits_request (kind : Byte) (fields : List Byte) {act : State → Answer}
    (acts : ∀ t, (act t).state.mgmt.rx = t.mgmt.rx ∧ (act t).state.mgmt.complete = t.mgmt.complete) {s : State}
    (h : LineFits s) : LineFits (request kind fields act s) := by
  unfold request
  split
  · split
    · exact lineFits_answered kind _ acts h
    · exact lineFits_frameBusy kind h
  · exact h

theorem lineFits_serve (body : List Byte) {s : State} (h : LineFits s) : LineFits (serve body s) := by
  unfold serve
  split
  · exact h
  · next kind fields =>
    refine lineFits_answered kind _ (act := answerTo kind fields) (fun t => ?_) h
    unfold answerTo
    split
    · exact ifServed_receiver _ _ t
    · exact ⟨rfl, rfl⟩

/-! ### The character receiver -/

/-- The state once the complete frame, if there is one, has been handed to its judgement (R154). -/
def State.handedOver (s : State) : State := { s with mgmt := { s.mgmt with complete := none } }

/-- A character leaves the line in its form, once the frame it may complete is handed over (R153). -/
theorem lineFits_receiveChar (b : Byte) (fault : Bool) {s : State} (h : LineFits s) :
    LineFits (receiveChar b fault s).handedOver := by
  have handed {t : State} (ht : LineFits t) : LineFits t.handedOver := ht.counted ht.judged.symm rfl rfl rfl rfl
  have cut := handed (lineFits_frameTruncated h)
  unfold receiveChar
  split
  case h_1 =>
    split
    · exact h.received rfl rfl rfl rfl nofun nofun
    · exact handed h
  case h_2 =>
    split
    · exact cut
    · split
      · next len =>
        refine h.received rfl rfl rfl rfl ?_ nofun
        rintro n got ⟨⟩
        exact len
      · exact h.hunting rfl rfl rfl rfl rfl
  case h_3 n got rx =>
    obtain ⟨short, most⟩ := h.body n got rx
    split
    · exact cut
    · split
      · refine h.received rfl rfl rfl rfl nofun ?_
        rintro body first ⟨⟩
        simp only [List.length_append, List.length_singleton]
        omega
      · next more =>
        refine h.received rfl rfl rfl rfl ?_ nofun
        rintro m more' ⟨⟩
        simp only [List.length_append, List.length_singleton]
        omega
  case h_4 body rx =>
    split
    · exact cut
    · refine h.received rfl rfl rfl rfl nofun ?_
      rintro body' first ⟨⟩
      exact h.check body none rx
  case h_5 =>
    split
    · exact cut
    · exact h.hunting rfl rfl rfl rfl rfl

/-- The judgement of a frame ends with its reply or its REJECT (R154 to R156). -/
theorem lineFits_judgeFrame (f : Frame) {s : State} (h : LineFits s) : LineFits (judgeFrame f s) := by
  unfold judgeFrame
  split
  · exact lineFits_frameCheckFails h
  · split
    · exact lineFits_serve _ h
    · exact lineFits_frameBusy _ h

theorem lineFits_judgeComplete {s : State} (h : LineFits s.handedOver) : LineFits (judgeComplete s) := by
  cases complete : s.mgmt.complete with
  | none =>
    rw [judgeComplete_none complete]
    exact h.counted complete rfl rfl rfl rfl
  | some f =>
    unfold judgeComplete
    rw [complete]
    exact lineFits_judgeFrame f h

/-! ### Every command -/

theorem lineFits_resetTo (c : ResetCause) (baud : Bool) (s : State) : LineFits (resetTo c baud s) :=
  lineFits_reset.counted rfl rfl rfl rfl rfl

theorem lineFits_sampleKey (level : Bool) {s : State} (h : LineFits s) : LineFits (sampleKey level s) :=
  h.of_part (frame_sampleKey level s) (by decide)

theorem lineFits_keyRead (c : Instr) {s : State} (h : LineFits s) : LineFits (keyRead c s) := by
  unfold keyRead
  split
  · exact lineFits_sampleKey _ h
  · exact lineFits_sampleKey _ h
  · exact lineFits_sampleKey _ h
  · exact h

theorem exec_lineFits (c : Instr) {s t : State} (h : LineFits s) (run : exec c s = .next t) : LineFits t := by
  cases requested : requestOf c with
  | some asked =>
    obtain ⟨k, run'⟩ := exec_request requested s
    cases run.symm.trans run'
    exact lineFits_request _ _ (ifServed_receiver k _) (lineFits_keyRead c h)
  | none =>
    obtain ⟨u, run', frame⟩ := exec_frame c s
    cases run.symm.trans run'
    cases c
    case powerReset baud => cases run; exact lineFits_resetTo _ _ s
    case pinReset baud => cases run; exact lineFits_resetTo _ _ s
    case replyEnd baud =>
      cases run
      split
      · split
        · exact lineFits_resetTo _ _ s
        · next owed => exact lineFits_replyEnds h owed
      · exact h
    case character b stop =>
      cases run
      exact lineFits_judgeComplete (lineFits_receiveChar _ _ (lineFits_sampleKey _ h))
    case gapTimeout =>
      cases run
      split
      · exact h
      · exact lineFits_frameTruncated h
    case checkFail body check =>
      cases run
      split
      · exact lineFits_frameCheckFails h
      · exact h
    case rejectBusy kind fields =>
      cases run
      split
      · exact lineFits_frameBusy kind h
      · exact h
    case unknown kind fields =>
      cases run
      split
      · exact h
      · exact lineFits_request _ _ (fun _ => ⟨rfl, rfl⟩) h
    case stat | portq | fetch | ackgap | trapclr | mode | lesson | reset | setp | roles | ovrd | store | watch | extend
        | unwatch => cases requested
    all_goals exact h.of_part frame (by simp [touches, guardParts, fallParts, intervalParts, linkParts])

/-! ### The statement -/

/-- A predicate of the state that every command keeps, and that the waiting commands have no part in, is kept by every
step. -/
theorem step_keeps {P : State → Prop} (queue : ∀ s rest, P s → P { s with pending := rest })
    (execs : ∀ c {s t : State}, P s → exec c s = .next t → P t) {s t : State} (h : P s) (run : step s = .next t) :
    P t := by
  unfold step at run
  split at run
  · cases run; exact h
  · next c rest _ => exact execs c (queue s rest h) run

/-- Settles O52: every command keeps the queue within its size and the line in its form. -/
theorem queueAndLineKeepTheirForm : Obligations.QueueAndLineKeepTheirForm :=
  ⟨fun _ _ => step_keeps (fun _ _ h => h.congr rfl) exec_queueFits,
    fun _ _ => step_keeps (fun _ _ h => h.congr rfl) exec_lineFits⟩

end Sys2Proof.Machine
end

section
/-! SUPPORT. The three resets, the refusals of a request, and the table of MODE (R140, R141, R145 to R151, R156, R160,
R181). -/

namespace Sys2Proof.Machine

/-! ### The resets -/

theorem exec_replyEnd_reset {reply : List Byte} {s : State} (baud : Bool) (line : s.mgmt.line = .sending reply)
    (owed : s.mgmt.resetOwed = true) : exec (.replyEnd baud) s = .next (resetTo .request baud s) := by
  have sending : s.mgmt.line.isSending = true := by rw [line]; rfl
  show execReplyEnd baud s = _
  rw [execReplyEnd, if_pos sending, if_pos owed]

/-- Settles O3: each of the three commands takes the same reset, with its own cause. -/
theorem resetsClearVolatileState : Obligations.ResetsClearVolatileState :=
  fun baud _ => ⟨rfl, rfl, fun _ line owed => exec_replyEnd_reset baud line owed⟩

/-! ### Refusals -/

/-- A refusal goes out as the head alone (R156). -/
theorem sendReply_refuse (kind : Byte) (r : Result) (t : State) :
    sendReply kind (refuse r t) = t.replying [kind + 0x80, r.code] := rfl

/-- A request command is the request that its kind byte names. -/
theorem exec_request_code {c : Instr} {kind : Byte} {fields : List Byte} (h : requestOf c = some (kind, fields))
    (s : State) :
    ∃ k : RequestKind, k.code = kind ∧
      exec c s = .next (request k.code fields (ifServed k (k.act fields)) (keyRead c s)) := by
  cases c
  case stat | portq | fetch | ackgap | trapclr | mode | lesson | reset | setp | roles | ovrd | store | watch | extend
      | unwatch =>
    cases h
    refine ⟨_, ?_, rfl⟩
    rfl
  all_goals cases h

/-- SETP with a body that holds no whole number of pairs, none or more than sixteen is answered RANGE (R161, R181). -/
theorem doSetp_length {fields : List Byte} (bad : ¬ lengthFits 0x07 fields.length) (t : State) :
    doSetp fields t = refuse .range t := by
  have unread : ((parsePairs fields).bind fun l => if 1 ≤ l.length ∧ l.length ≤ 16 then namePairs l else none) =
      none := by
    cases parsed : parsePairs fields with
    | none => rfl
    | some l =>
      have length := parsePairs_length fields l parsed
      refine if_neg fun ⟨some1, most⟩ => bad ?_
      show 4 ≤ fields.length ∧ fields.length ≤ 64 ∧ fields.length % 4 = 0
      omega
  unfold doSetp
  rw [unread]

/-- ROLES with no code or with more than there are ports is answered RANGE (R162, R181). -/
theorem doRoles_length {fields : List Byte} (bad : ¬ lengthFits 0x08 fields.length) (t : State) :
    doRoles fields t = refuse .range t := by
  unfold doRoles
  split
  · rfl
  · next start rest =>
    split
    · rfl
    · next codes parsed =>
      have length := parseRoles_length rest codes parsed
      refine if_neg fun ⟨some1, _, room⟩ => bad ?_
      show 2 ≤ rest.length + 1 ∧ rest.length + 1 ≤ 29
      omega

/-- STAT with more than the clear flag is answered RANGE (R157, R181). -/
theorem doStat_length {fields : List Byte} (bad : ¬ lengthFits 0x01 fields.length) (t : State) :
    doStat fields t = refuse .range t := by
  unfold doStat
  split
  · exact absurd (Nat.zero_le 1) bad
  · exact absurd (Nat.le_refl 1) bad
  · rfl

/-- Every owning block answers a body of the wrong length RANGE (R156, R181). -/
theorem act_length (k : RequestKind) {fields : List Byte} (bad : ¬ lengthFits k.code fields.length) (t : State) :
    k.act fields t = refuse .range t := by
  cases k with
  | stat => exact doStat_length bad t
  | setp => exact doSetp_length bad t
  | roles => exact doRoles_length bad t
  | portq | fetch | ackgap | trapclr | mode | ovrd | lesson | store | watch | extend | unwatch | reset =>
    simp only [RequestKind.act, doPortq, doFetch, doAckgap, doTrapclr, doMode, doOvrd, doLesson, doStore, doWatch,
      doExtend, doUnwatch, doReset]
    split
    · exact absurd rfl bad
    · rfl

/-- A kind that names no request is answered UNKNOWN in every mode (R156). -/
theorem exec_unknown {kind : Byte} {fields : List Byte} {s t : State}
    (unnamed : ¬(1 ≤ kind.toNat ∧ kind.toNat ≤ 15)) (carried : Carried (kind :: fields) s t) :
    exec (.unknown kind fields) s = .next (t.replying [kind + 0x80, 0x05]) := by
  have names : ¬ namesRequest kind = true := by
    simpa only [namesRequest, Bool.and_eq_true, decide_eq_true_eq] using unnamed
  show execUnknown kind fields s = _
  rw [execUnknown, if_neg names, request_carried _ carried, sendReply_refuse]
  rfl

/-- Settles O37: the kind is judged before the mode, and the mode before the length. -/
theorem refusedRequestsHaveNoEffect : Obligations.RefusedRequestsHaveNoEffect := by
  refine ⟨fun kind fields s t => exec_unknown, fun c kind fields s t asked carried => ?_⟩
  obtain ⟨k, rfl, run⟩ := exec_request_code asked s
  rw [run]
  refine ⟨fun unserved => congrArg _ (request_unserved carried unserved), fun served bad => ?_⟩
  rw [request_served carried served, act_length k bad, sendReply_refuse]
  rfl

/-! ### MODE -/

/-- The codes of the modes but START name their mode as a target (R146). -/
theorem ofTarget_code {m : Mode} (running : m ≠ .start) : Mode.ofTarget m.code = some m := by
  cases m with
  | start => exact absurd rfl running
  | autonomous => rfl
  | managed => rfl
  | rest => rfl

/-- START and the codes above 3 are no target (R146). -/
theorem ofTarget_none {b : Byte} (bad : b = 0 ∨ 3 < b.toNat) : Mode.ofTarget b = none := by
  have other (d : Byte) (target : 1 ≤ d.toNat ∧ d.toNat ≤ 3) : b ≠ d := by
    rintro rfl
    rcases bad with rfl | high
    · exact absurd target.1 (by decide)
    · exact absurd target.2 (Nat.not_le.mpr high)
  unfold Mode.ofTarget
  rw [if_neg (other 1 (by decide)), if_neg (other 2 (by decide)), if_neg (other 3 (by decide))]

theorem exec_mode {b : Byte} {s t : State} (carried : Carried [0x06, b] s t) (served : servedIn t.control.mode 0x06) :
    exec (.mode [b]) s = .next (sendReply 0x06 (doMode [b] t)) :=
  congrArg Host.Outcome.next (request_served (k := .mode) carried served)

theorem exec_mode_range {b : Byte} {s t : State} (carried : Carried [0x06, b] s t)
    (served : servedIn t.control.mode 0x06) (bad : b = 0 ∨ 3 < b.toNat) :
    exec (.mode [b]) s = .next (t.replying [0x86, 0x04]) := by
  have refused : doMode [b] t = refuse .range t := by simp only [doMode, ofTarget_none bad]
  rw [exec_mode carried served, refused]
  rfl

/-- A request that names a mode has that mode's column of R146. -/
theorem exec_mode_target {b : Byte} {m : Mode} {s t : State} (carried : Carried [0x06, b] s t)
    (served : servedIn t.control.mode 0x06) (target : Mode.ofTarget b = some m) :
    exec (.mode [b]) s = .next (sendReply 0x06 (modeTo m t)) := by
  have named : doMode [b] t = modeTo m t := by simp only [doMode, target]
  rw [exec_mode carried served, named]

/-- A request for the present mode changes nothing (R146). -/
theorem modeTo_present {m : Mode} {t : State} (present : t.control.mode = m) : modeTo m t = modeReply t :=
  if_pos present

theorem modeTo_autonomous {t : State} (other : t.control.mode ≠ .autonomous) :
    modeTo .autonomous t = modeReply (enterAutonomous .request t) := if_neg other

theorem modeTo_managed {t : State} (other : t.control.mode ≠ .managed) :
    modeTo .managed t = modeReply (setMode .managed .request t) := if_neg other

/-- REST is entered from MANAGED only, and only where it is allowed (R146, R149). -/
theorem modeTo_rest {t : State} (other : t.control.mode ≠ .rest) :
    modeTo .rest t =
      if t.control.mode = .managed ∧ restAllowed t = true then modeReply (setMode .rest .request t)
      else refuse .state t := if_neg other

/-- A change of mode touches the Mode Unit and adds its MODE record (R148, R151). -/
theorem setMode_eq (m : Mode) (c : ModeCause) (t : State) :
    setMode m c t =
      { t with
        control := { t.control with mode := m, hostLost := 0, hostLostDue := false }
        reports := (report (.mode t.control.mode m c) t).reports } := by
  have told : (setMode m c t).reports = (report (.mode t.control.mode m c) t).reports := report_reports_congr _ rfl rfl
  rw [← told]
  exact report_eq _ _

/-- REST is allowed where every port is quiet and no watch runs (R149). -/
theorem restAllowed_iff (t : State) :
    restAllowed t = true ↔
      (∀ p, ((t.port p).guard = .down ∨ (t.port p).guard = .forward ∨ (t.port p).guard = .disabled) ∧
        (t.port p).override = .noOverride) ∧ t.reports.watch = none := by
  simp only [restAllowed, PortRec.restful, Bool.and_eq_true, List.all_eq_true, Bool.or_eq_true, decide_eq_true_eq,
    Option.isNone_iff_eq_none, mem_allPorts, forall_const, or_assoc]

/-- An entry into AUTONOMOUS at a request (R147, R160). -/
theorem exec_mode_autonomous {s t : State} (carried : Carried [0x06, 1] s t) (served : servedIn t.control.mode 0x06)
    (other : t.control.mode ≠ .autonomous) :
    exec (.mode [1]) s = .next ((enterAutonomous .request t).replying [0x86, 0x00, 1]) := by
  have code : (enterAutonomous .request t).control.mode = .autonomous := by rw [enterAutonomous_modeUnit]
  rw [exec_mode_target carried served (m := .autonomous) rfl, modeTo_autonomous other, modeReply, code]
  rfl

/-- Settles O43: the target is named or answered RANGE, and each named target has its row of R146. -/
theorem modeRequestTable : Obligations.ModeRequestTable := by
  intro b s t carried served
  refine ⟨exec_mode_range carried served, fun low _ present => ?_, ?_, ?_, ?_, ?_⟩
  · have running : t.control.mode ≠ .start := by
      intro start
      rw [present, start] at low
      exact absurd low (by decide)
    rw [exec_mode_target carried served (present ▸ ofTarget_code running), modeTo_present rfl, present]
    rfl
  · rintro rfl other
    exact ⟨_, exec_mode_autonomous carried served other, frame_enterAutonomous .request t,
      enterAutonomous_modeUnit .request t, enterAutonomous_port .request t, enterAutonomous_first .request t⟩
  · rintro rfl other
    rw [exec_mode_target carried served (m := .managed) rfl, modeTo_managed other, setMode_eq]
    rfl
  · rintro rfl autonomous
    rw [exec_mode_target carried served (m := .rest) rfl, modeTo_rest (by rw [autonomous]; decide),
      if_neg (by simp [autonomous])]
    rfl
  · rintro rfl managed quiet
    rw [exec_mode_target carried served (m := .rest) rfl, modeTo_rest (by rw [managed]; decide)]
    refine ⟨fun busy => ?_, fun still => ?_⟩
    · rw [if_neg fun h => busy ((restAllowed_iff t).mp h.2)]
      rfl
    · rw [if_pos ⟨managed, (restAllowed_iff t).mpr still⟩, setMode_eq, managed]
      rfl

end Sys2Proof.Machine
end

section
/-! SUPPORT. The character receiver, the REJECTs of broken frames, and the end of a reply (R153 to R156). -/

namespace Sys2Proof.Machine

/-! ### A REJECT -/

/-- The Management Line once a REJECT has become owed: sent on an IDLE line, kept in an empty slot, dropped otherwise
(R155). -/
def ManagementLine.owing (r : Reject) (m : ManagementLine) : ManagementLine :=
  if m.line = .idle then { m with line := .sending (rejectBody r) }
  else if m.reject = none then { m with reject := some r }
  else m

theorem oweReject_eq (r : Reject) (s : State) : oweReject r s = { s with mgmt := s.mgmt.owing r } := by
  unfold oweReject ManagementLine.owing
  split
  · next idle => rw [if_pos idle]
  · next empty busy => rw [if_neg busy, if_pos empty]
  · next full busy => rw [if_neg busy, if_neg (by rw [full]; exact nofun)]

theorem frameTruncated_eq (s : State) :
    frameTruncated s =
      { s with
        mgmt := ManagementLine.owing .trunc
          { s.mgmt with rx := .hunt, truncated := min 65535 (s.mgmt.truncated + 1) } } := oweReject_eq _ _

theorem frameCheckFails_eq (s : State) :
    frameCheckFails s =
      { s with
        mgmt := ManagementLine.owing .check { s.mgmt with checkFails := min 65535 (s.mgmt.checkFails + 1) } } :=
  oweReject_eq _ _

theorem frameBusy_eq (kind : Byte) (s : State) :
    frameBusy kind s =
      { s with mgmt := ManagementLine.owing (.busy kind) { s.mgmt with busy := min 65535 (s.mgmt.busy + 1) } } :=
  oweReject_eq _ _

theorem owing_complete (r : Reject) (m : ManagementLine) : (m.owing r).complete = m.complete := by
  unfold ManagementLine.owing
  split
  · rfl
  · split <;> rfl

/-! ### A frame that arrives whole -/

theorem frameArrives_iff (body : List Byte) (s : State) :
    frameArrives body s = true ↔
      1 ≤ body.length ∧ body.length ≤ 200 ∧ s.mgmt.rx = .hunt ∧ s.mgmt.complete = none := by
  simp only [frameArrives, Bool.and_eq_true, decide_eq_true_eq, Option.isNone_iff_eq_none, and_assoc]
  exact Iff.rfl

theorem lineFree_iff (s : State) : lineFree s = true ↔ s.mgmt.line = .idle ∧ s.mgmt.reject = none := by
  simp only [lineFree, Bool.and_eq_true, decide_eq_true_eq, Option.isNone_iff_eq_none]

/-- A line that answers, or with a REJECT waiting, takes no frame (R154). -/
theorem lineFree_false {s : State} (held : s.mgmt.line ≠ .idle ∨ s.mgmt.reject ≠ none) : lineFree s = false :=
  Bool.eq_false_iff.mpr fun free =>
    have ⟨idle, empty⟩ := (lineFree_iff s).mp free
    held.elim (· idle) (· empty)

theorem exec_checkFail {body : List Byte} {check : BitVec 16} {s : State} (arrives : frameArrives body s = true)
    (wrong : check ≠ frameCheck body) : exec (.checkFail body check) s = .next (frameCheckFails s) :=
  congrArg Host.Outcome.next (if_pos ⟨wrong, arrives⟩)

theorem exec_rejectBusy {kind : Byte} {fields : List Byte} {s : State}
    (arrives : frameArrives (kind :: fields) s = true) (held : lineFree s = false) :
    exec (.rejectBusy kind fields) s = .next (frameBusy kind s) :=
  congrArg Host.Outcome.next (if_pos ⟨arrives, held⟩)

/-- A request that arrives whole at a free line is carried out (R154, R156). -/
theorem request_free {kind : Byte} {fields : List Byte} {act : State → Answer} {s : State}
    (arrives : frameArrives (kind :: fields) s = true) (free : lineFree s = true) :
    request kind fields act s = sendReply kind (act (takeFrame (kind :: fields) s)) := by
  rw [request, if_pos arrives, if_pos free]

/-! ### The judgement of a frame is what the frame does arriving whole -/

theorem judgeFrame_checkFail {body : List Byte} {check : BitVec 16} {s : State} (arrives : frameArrives body s = true)
    (wrong : check ≠ frameCheck body) :
    Host.Outcome.next (judgeFrame ⟨body, check⟩ s) = exec (.checkFail body check) s := by
  rw [exec_checkFail arrives wrong, judgeFrame, if_pos wrong]

/-- A frame with the right check is carried out at a free line and busy at any other (R154). -/
theorem judgeFrame_good (body : List Byte) (s : State) :
    judgeFrame (goodFrame body) s = if lineFree s then serve body s else frameBusy (kindOf body) s :=
  if_neg (not_not_intro rfl)

/-- A checked frame at a free line is carried out (R154, R156). -/
theorem judgeFrame_free {kind : Byte} {fields : List Byte} {s : State} (free : lineFree s = true) :
    judgeFrame (goodFrame (kind :: fields)) s =
      sendReply kind (answerTo kind fields (takeFrame (kind :: fields) s)) := by
  rw [judgeFrame_good, if_pos free, serve]

theorem judgeFrame_busy {kind : Byte} {fields : List Byte} {s : State}
    (arrives : frameArrives (kind :: fields) s = true) (held : lineFree s = false) :
    Host.Outcome.next (judgeFrame (goodFrame (kind :: fields)) s) = exec (.rejectBusy kind fields) s := by
  rw [exec_rejectBusy arrives held, judgeFrame_good, if_neg (Bool.eq_false_iff.mp held)]
  rfl

theorem judgeFrame_unknown {kind : Byte} {fields : List Byte} {s : State}
    (arrives : frameArrives (kind :: fields) s = true) (free : lineFree s = true)
    (unnamed : ¬(1 ≤ kind.toNat ∧ kind.toNat ≤ 15)) :
    Host.Outcome.next (judgeFrame (goodFrame (kind :: fields)) s) = exec (.unknown kind fields) s := by
  have names : namesRequest kind = false := Bool.eq_false_iff.mpr fun named => unnamed <| by
    simpa only [namesRequest, Bool.and_eq_true, decide_eq_true_eq] using named
  show _ = execUnknown kind fields s
  rw [execUnknown, if_neg (Bool.eq_false_iff.mp names), request_free arrives free, judgeFrame_free free,
    answerTo_unknown names]

theorem judgeFrame_request {c : Instr} {kind : Byte} {fields : List Byte} {s : State}
    (arrives : frameArrives (kind :: fields) s = true) (free : lineFree s = true)
    (asked : requestOf c = some (kind, fields)) (level : keyRead c s = s) :
    Host.Outcome.next (judgeFrame (goodFrame (kind :: fields)) s) = exec c s := by
  obtain ⟨k, rfl, run⟩ := exec_request_code asked s
  rw [run, level, request_free arrives free, judgeFrame_free free, answerTo_code]

/-! ### The receiver -/

/-- The state with the receiver in another of its states (R153). -/
def State.listening (x : LineRx) (s : State) : State := { s with mgmt := { s.mgmt with rx := x } }

theorem sampleKey_mgmt (level : Bool) (s : State) : (sampleKey level s).mgmt = s.mgmt :=
  frame_sampleKey level s .mgmt (by decide)

theorem receiveChar_sync {s : State} (hunt : s.mgmt.rx = .hunt) : receiveChar 0xC3 false s = s.listening .len := by
  unfold receiveChar
  rw [hunt]
  exact if_pos ⟨rfl, rfl⟩

/-- HUNT ignores every other character, and one with a framing fault. -/
theorem receiveChar_ignored {b : Byte} {fault : Bool} {s : State} (hunt : s.mgmt.rx = .hunt)
    (other : fault = true ∨ b ≠ 0xC3) : receiveChar b fault s = s := by
  simp only [receiveChar, hunt]
  refine if_neg fun ⟨sound, sync⟩ => other.elim (fun faulty => ?_) (· sync)
  rw [sound] at faulty
  cases faulty

/-- Inside a frame a framing fault cuts the frame short. -/
theorem receiveChar_fault {b : Byte} {s : State} (inside : s.mgmt.rx ≠ .hunt) :
    receiveChar b true s = frameTruncated s := by
  unfold receiveChar
  split
  case h_1 hunt => exact absurd hunt inside
  all_goals rfl

theorem receiveChar_len {b : Byte} {s : State} (len : s.mgmt.rx = .len) (fits : 1 ≤ b.toNat ∧ b.toNat ≤ 200) :
    receiveChar b false s = s.listening (.body b.toNat []) := by
  simp only [receiveChar, len, Bool.false_eq_true, if_false]
  exact if_pos fits

theorem receiveChar_badLength {b : Byte} {s : State} (len : s.mgmt.rx = .len)
    (bad : b.toNat = 0 ∨ 200 < b.toNat) :
    receiveChar b false s =
      { s with mgmt := { s.mgmt with rx := .hunt, badLength := min 65535 (s.mgmt.badLength + 1) } } := by
  have unfit : ¬(1 ≤ b.toNat ∧ b.toNat ≤ Config.bodyMax) := by
    show ¬(1 ≤ b.toNat ∧ b.toNat ≤ 200)
    omega
  simp only [receiveChar, len, Bool.false_eq_true, if_false, if_neg unfit]
  rfl

theorem receiveChar_body {b : Byte} {n : Nat} {got : List Byte} {s : State} (body : s.mgmt.rx = .body n got) :
    receiveChar b false s =
      s.listening (if n ≤ got.length + 1 then .check (got ++ [b]) none else .body n (got ++ [b])) := by
  simp only [receiveChar, body, Bool.false_eq_true, if_false]
  split <;> rfl

theorem receiveChar_check {b : Byte} {body : List Byte} {s : State} (check : s.mgmt.rx = .check body none) :
    receiveChar b false s = s.listening (.check body (some b)) := by
  simp only [receiveChar, check, Bool.false_eq_true, if_false]
  rfl

/-- The state with a frame just completed, on its way to its judgement (R153, R154). -/
def State.handing (f : Frame) (s : State) : State :=
  { s with mgmt := { s.mgmt with rx := .hunt, complete := some f } }

theorem receiveChar_last {b hi : Byte} {body : List Byte} {s : State} (check : s.mgmt.rx = .check body (some hi)) :
    receiveChar b false s = s.handing ⟨body, hi ++ b⟩ := by
  simp only [receiveChar, check, Bool.false_eq_true, if_false]
  rfl

theorem handing_handedOver (f : Frame) {s : State} (complete : s.mgmt.complete = none) :
    (s.handing f).handedOver = s.listening .hunt := by
  show ({ s with mgmt := { s.mgmt with rx := .hunt, complete := none } } : State) = _
  rw [← complete]
  rfl

theorem judgeComplete_some {f : Frame} {s : State} (complete : s.mgmt.complete = some f) :
    judgeComplete s = judgeFrame f s.handedOver := by
  unfold judgeComplete
  rw [complete]
  rfl

/-- A character that completes no frame is the receiver's alone. -/
theorem exec_character {b : Byte} {stop : CharacterEnd} {s t : State}
    (heard : receiveChar b stop.framingFault (sampleKey stop.key s) = t) (complete : t.mgmt.complete = none) :
    exec (.character b stop) s = .next t := by
  show Host.Outcome.next _ = _
  rw [heard, judgeComplete_none complete]

/-- The character that completes a frame brings its judgement, with the receiver back in HUNT (R153, R154). -/
theorem exec_character_last {b hi : Byte} {key : Bool} {body : List Byte} {s : State}
    (complete : s.mgmt.complete = none) (check : s.mgmt.rx = .check body (some hi)) :
    exec (.character b ⟨false, key⟩) s =
      .next (judgeFrame ⟨body, hi ++ b⟩ ((sampleKey key s).listening .hunt)) := by
  have line := sampleKey_mgmt key s
  have handed : (State.handing ⟨body, hi ++ b⟩ (sampleKey key s)).handedOver = (sampleKey key s).listening .hunt :=
    handing_handedOver _ (line ▸ complete)
  show Host.Outcome.next (judgeComplete (receiveChar b false (sampleKey key s))) = _
  rw [receiveChar_last (line ▸ check), judgeComplete_some rfl, handed]

/-! ### The statements -/

/-- Settles O34: each state of the receiver has its row of the table, and the frame's last character its judgement. -/
theorem charactersMoveTheReceiver : Obligations.CharactersMoveTheReceiver := by
  intro s b key complete seen go
  have line : seen.mgmt = s.mgmt := sampleKey_mgmt key s
  have goes (x : LineRx) : seen.listening x = go x := by rw [State.listening, line]
  have moves {x : LineRx} (heard : receiveChar b false seen = seen.listening x) :
      exec (.character b ⟨false, key⟩) s = .next (go x) := exec_character (heard.trans (goes x)) complete
  have ignored (fault : Bool) (hunt : s.mgmt.rx = .hunt) (other : fault = true ∨ b ≠ 0xC3) :
      exec (.character b ⟨fault, key⟩) s = .next seen :=
    exec_character (receiveChar_ignored (line ▸ hunt) other) (line ▸ complete)
  refine ⟨fun hunt => ⟨?_, fun other => ignored false hunt (.inr other), ignored true hunt (.inl rfl)⟩,
    fun len => ⟨fun low high => moves (receiveChar_len (line ▸ len) ⟨low, high⟩), fun bad => ?_⟩,
    fun n got body => ?_, fun body => ⟨fun check => moves (receiveChar_check (line ▸ check)), ?_⟩⟩
  · rintro rfl
    exact moves (receiveChar_sync (line ▸ hunt))
  · refine exec_character ?_ complete
    rw [← line]
    exact receiveChar_badLength (line ▸ len) bad
  · have heard := receiveChar_body (b := b) (s := seen) (line ▸ body)
    refine ⟨fun short => moves ?_, fun full => moves ?_⟩
    · rw [heard, if_neg (Nat.not_le.mpr short)]
    · rw [heard, if_pos full]
  · intro hi check some1 most
    have run := exec_character_last (b := b) (key := key) complete check
    have judged : (sampleKey key s).listening .hunt = go .hunt := goes .hunt
    rw [judged] at run
    have arrives : frameArrives body (go .hunt) = true := (frameArrives_iff _ _).mpr ⟨some1, most, rfl, complete⟩
    refine ⟨fun wrong => run.trans (judgeFrame_checkFail arrives wrong), ?_⟩
    rintro kind fields rfl good
    rw [good] at run
    refine ⟨fun held => run.trans (judgeFrame_busy arrives (lineFree_false held)), fun idle empty => ?_⟩
    have free : lineFree (go .hunt) = true := (lineFree_iff _).mpr ⟨idle, empty⟩
    exact ⟨fun unnamed => run.trans (judgeFrame_unknown arrives free unnamed),
      fun c asked level => run.trans (judgeFrame_request arrives free asked level)⟩

/-- Settles O35: each of the three raises its count and owes its REJECT. -/
theorem brokenFramesAreRejected : Obligations.BrokenFramesAreRejected := by
  intro s complete owed cut
  refine ⟨fun inside => ⟨?_, fun b key => ?_⟩, fun body check some1 most wrong hunt => ?_,
    fun kind fields most held hunt => ?_⟩
  · show execGapTimeout s = _
    rw [execGapTimeout, if_neg inside, frameTruncated_eq]
    rfl
  · have line := sampleKey_mgmt key s
    refine exec_character ?_ ((owing_complete _ _).trans complete)
    rw [receiveChar_fault (line ▸ inside), frameTruncated_eq, line]
    rfl
  · rw [exec_checkFail ((frameArrives_iff _ _).mpr ⟨some1, most, hunt, complete⟩) wrong, frameCheckFails_eq]
    rfl
  · have arrives : frameArrives (kind :: fields) s = true :=
      (frameArrives_iff _ _).mpr ⟨Nat.succ_pos _, most, hunt, complete⟩
    rw [exec_rejectBusy arrives (lineFree_false held), frameBusy_eq]
    rfl

/-- The end of a reply that no reset follows (R155). -/
theorem exec_replyEnd {reply : List Byte} {s : State} (baud : Bool) (line : s.mgmt.line = .sending reply)
    (kept : s.mgmt.resetOwed = false) : exec (.replyEnd baud) s = .next (replyEnds s) := by
  have sending : s.mgmt.line.isSending = true := by rw [line]; rfl
  show execReplyEnd baud s = _
  rw [execReplyEnd, if_pos sending, if_neg (by rw [kept]; decide)]

/-- Settles O36: the slot says which of the two follows. -/
theorem replyEndSendsTheReject : Obligations.ReplyEndSendsTheReject := by
  intro s baud body line kept
  rw [exec_replyEnd baud line kept]
  refine ⟨fun r waits => ?_, fun empty => ?_⟩
  · simp only [replyEnds, waits]
  · simp only [replyEnds, empty]

end Sys2Proof.Machine
end

section
/-! SUPPORT. The requests that read and remove: STAT, PORTQ, FETCH and ACKGAP, with ATTN (R157 to R159, R169 to R171,
R181). -/

namespace Sys2Proof.Machine

theorem bytesOf_length (n v : Nat) : (bytesOf n v).length = n := by
  induction n with
  | zero => rfl
  | succ n ih => rw [bytesOf, List.length_cons, ih]

/-! ### STAT -/

/-- STAT is served in every mode (R145). -/
theorem exec_stat {key : Bool} {fields : List Byte} {s t : State}
    (carried : Carried (0x01 :: fields) (sampleKey key s) t) :
    exec (.stat key fields) s = .next (sendReply 0x01 (doStat fields t)) :=
  congrArg Host.Outcome.next
    (request_served (k := .stat) carried ((serves_iff t.control.mode .stat).mp rfl))

/-- The clear flag is 0 or 1 (R157). -/
theorem doStat_range {c : Byte} (high : 1 < c.toNat) (t : State) : doStat [c] t = refuse .range t := by
  have other (d : Byte) (low : d.toNat ≤ 1) : c ≠ d := by
    rintro rfl
    exact absurd high (Nat.not_lt.mpr low)
  rw [doStat, if_neg (other 0 (by decide)), if_neg (other 1 (by decide))]

theorem watchBytes_length (w : Option Watch) : (watchBytes w).length = 6 := by
  cases w with
  | none => rfl
  | some w => simp only [watchBytes, List.length_cons, List.length_append, bytesOf_length]

theorem trapBytes_length (r : Option TrapRecord) : (trapBytes r).length = 8 := by
  cases r with
  | none => rfl
  | some r => simp only [trapBytes, List.length_cons, List.length_append, bytesOf_length, List.length_nil]

/-- The one-byte fields that open a STAT reply (R157). -/
def statHead (t : State) : List Byte :=
  [t.control.mode.code, t.control.resetCause.code, t.glink.state.code, flagByte t.key, writeByte t.settings.write,
    t.settings.policyValidity.code, t.settings.roleValidity.code, BitVec.ofNat 8 t.reports.queue.length,
    flagByte t.reports.overflow]

/-- The reply of STAT by its groups of fields (R157, R181). -/
theorem statFields_eq (t : State) :
    statFields t =
      statHead t ++ (bytesOf 2 t.reports.lost ++
        (watchBytes t.reports.watch ++ (trapBytes t.trap ++ (statCounts t).flatMap (bytesOf 2)))) := by
  simp only [statFields, statHead, List.append_assoc]

theorem statFields_drop_lost (t : State) :
    (statFields t).drop 9 =
      bytesOf 2 t.reports.lost ++
        (watchBytes t.reports.watch ++ (trapBytes t.trap ++ (statCounts t).flatMap (bytesOf 2))) := by
  rw [statFields_eq]
  exact List.drop_left' rfl

theorem statFields_drop_watch (t : State) :
    (statFields t).drop 11 =
      watchBytes t.reports.watch ++ (trapBytes t.trap ++ (statCounts t).flatMap (bytesOf 2)) := by
  rw [show 11 = 9 + 2 from rfl, ← List.drop_drop, statFields_drop_lost]
  exact List.drop_left' (bytesOf_length _ _)

theorem statFields_drop_trap (t : State) :
    (statFields t).drop 17 = trapBytes t.trap ++ (statCounts t).flatMap (bytesOf 2) := by
  rw [show 17 = 11 + 6 from rfl, ← List.drop_drop, statFields_drop_watch]
  exact List.drop_left' (watchBytes_length _)

theorem statFields_drop_counts (t : State) : (statFields t).drop 25 = (statCounts t).flatMap (bytesOf 2) := by
  rw [show 25 = 17 + 8 from rfl, ← List.drop_drop, statFields_drop_trap]
  exact List.drop_left' (trapBytes_length _)

theorem statFields_length (t : State) : (statFields t).length = 59 := by
  simp only [statFields, statCounts, List.flatMap_cons, List.flatMap_nil, List.length_append, List.length_cons,
    List.length_nil, bytesOf_length, watchBytes_length, trapBytes_length]

/-- Settles O38: the reply is made of groups of fields of known lengths, and the clear flag acts beside it. -/
theorem statReportsAndClears : Obligations.StatReportsAndClears := by
  refine ⟨fun key fields s t carried => ?_, fun t => ⟨statFields_length t, ?_, ?_, fun idle => ?_, fun w runs => ?_, ?_,
    statFields_drop_counts t⟩⟩
  · rw [exec_stat carried]
    refine ⟨?_, ?_, ?_⟩
    · rintro (rfl | rfl) <;> rfl
    · rintro rfl
      rfl
    · rintro c rfl high
      rw [doStat_range high]
      rfl
  · rw [statFields_eq]
    exact List.take_left' rfl
  · rw [statFields_drop_lost]
    exact List.take_left' (bytesOf_length _ _)
  · rw [statFields_drop_watch, List.take_left' (watchBytes_length _), idle]
    rfl
  · rw [statFields_drop_watch, List.take_left' (watchBytes_length _), runs]
    rfl
  · rw [statFields_drop_trap]
    exact List.take_left' (trapBytes_length _)

/-! ### PORTQ -/

theorem exec_portq {fields : List Byte} {s t : State} (carried : Carried (0x02 :: fields) s t)
    (served : servedIn t.control.mode 0x02) : exec (.portq fields) s = .next (sendReply 0x02 (doPortq fields t)) :=
  congrArg Host.Outcome.next (request_served (k := .portq) carried served)

theorem portqRecord_length (r : PortRec) : (portqRecord r).length = 19 := by
  simp only [portqRecord, List.length_append, List.length_cons, List.length_nil, bytesOf_length]

/-- Settles O39: the start is judged first, and the records are those of the ports from it on. -/
theorem portqReturnsThePorts : Obligations.PortqReturnsThePorts := by
  refine ⟨fun start count s t carried served => ?_, fun r => ⟨portqRecord_length r, rfl⟩⟩
  rw [exec_portq carried served, doPortq]
  refine ⟨fun beyond => ?_, fun within => ?_⟩
  · rw [if_neg (Nat.not_le.mpr beyond)]
    rfl
  · rw [if_pos within]
    rfl

/-! ### The judgement of resumption -/

/-- An overflow that has ended: the GAP record carries the lost count, and the marks are clear (R171). -/
def State.resumed (s : State) : State :=
  { s with
    reports :=
      { s.reports with
        queue := s.reports.queue ++ [⟨s.clock.stamp, .gap s.reports.lost⟩]
        overflow := false
        acknowledged := false
        lost := 0 } }

/-- With the queue at half its size or less there is room for the GAP record. -/
theorem judgeResumption_resumes {s : State} (few : s.reports.queue.length ≤ 32) : judgeResumption s = s.resumed := by
  have gap := report_room (.gap s.reports.lost)
    (s := { s with reports := { s.reports with overflow := false, acknowledged := false } }) rfl
    (Nat.lt_of_le_of_lt few (by decide))
  rw [judgeResumption, gap]
  exact if_pos few

theorem judgeResumption_waits {s : State} (many : 32 < s.reports.queue.length) : judgeResumption s = s :=
  if_neg (Nat.not_le.mpr many)

/-! ### FETCH -/

theorem exec_fetch {fields : List Byte} {s t : State} (carried : Carried (0x03 :: fields) s t)
    (served : servedIn t.control.mode 0x03) : exec (.fetch fields) s = .next (sendReply 0x03 (doFetch fields t)) :=
  congrArg Host.Outcome.next (request_served (k := .fetch) carried served)

/-- The state with the oldest `n` records removed (R170). -/
def State.dropped (n : Nat) (s : State) : State :=
  { s with reports := { s.reports with queue := s.reports.queue.drop n } }

theorem fetchState_resumes {n : Nat} {s : State} (overflow : s.reports.overflow = true)
    (acknowledged : s.reports.acknowledged = true) (few : (s.reports.queue.drop n).length ≤ 32) :
    fetchState n s = (s.dropped n).resumed :=
  (if_pos ⟨overflow, acknowledged⟩).trans (judgeResumption_resumes (s := s.dropped n) few)

/-- A FETCH that ends no overflow only removes its records. -/
theorem fetchState_removes {n : Nat} {s : State}
    (lasts : ¬(s.reports.overflow = true ∧ s.reports.acknowledged = true ∧ (s.reports.queue.drop n).length ≤ 32)) :
    fetchState n s = s.dropped n := by
  show (if s.reports.overflow = true ∧ s.reports.acknowledged = true then judgeResumption (s.dropped n)
    else s.dropped n) = s.dropped n
  split
  · next marks =>
    exact judgeResumption_waits (s := s.dropped n) (Nat.not_le.mp fun few => lasts ⟨marks.1, marks.2, few⟩)
  · rfl

/-- A FETCH removes the oldest records and judges resumption (R159, R170, R171). -/
theorem fetch_requests (b : Byte) (s t : State) (carried : Carried [0x03, b] s t)
    (served : servedIn t.control.mode 0x03) :
    let n := max 1 (min 8 b.toNat)
    let reply : Nat → List Byte := fun level =>
      0x83 :: 0x00 :: BitVec.ofNat 8 (t.reports.queue.take n).length ::
        (t.reports.queue.take n).flatMap Report.bytes ++ [BitVec.ofNat 8 level]
    exec (.fetch [b]) s = .next ((fetchState n t).replying (reply (fetchState n t).reports.queue.length)) := by
  rw [exec_fetch carried served]
  rfl

/-! ### ACKGAP -/

theorem exec_ackgap {s t : State} (carried : Carried [0x04] s t) (served : servedIn t.control.mode 0x04) :
    exec (.ackgap []) s = .next ((acknowledge t).replying
      [0x84, 0x00, flagByte (t.reports.overflow && !(acknowledge t).reports.overflow)]) :=
  congrArg Host.Outcome.next (request_served (k := .ackgap) carried served)

theorem acknowledge_none {s : State} (room : s.reports.overflow = false) : acknowledge s = s :=
  if_neg (Bool.eq_false_iff.mp room)

/-- The state with its overflow acknowledged (R171). -/
def State.acked (s : State) : State := { s with reports := { s.reports with acknowledged := true } }

/-- An ACKGAP during an overflow acknowledges it and judges resumption (R171). -/
theorem acknowledge_overflow {s : State} (overflow : s.reports.overflow = true) :
    acknowledge s = judgeResumption s.acked := if_pos overflow

/-- An ACKGAP changes something only in an overflow, and ends one with 32 records or fewer (R159, R171). -/
theorem ackgap_requests (s t : State) (carried : Carried [0x04] s t) (served : servedIn t.control.mode 0x04) :
    (t.reports.overflow = false → exec (.ackgap []) s = .next (t.replying [0x84, 0x00, 0])) ∧
    (t.reports.overflow = true → 32 < t.reports.queue.length →
      exec (.ackgap []) s = .next (t.acked.replying [0x84, 0x00, 0])) ∧
    (t.reports.overflow = true → t.reports.queue.length ≤ 32 →
      exec (.ackgap []) s = .next (t.acked.resumed.replying [0x84, 0x00, 1])) := by
  rw [exec_ackgap carried served]
  refine ⟨fun room => ?_, fun overflow many => ?_, fun overflow few => ?_⟩
  · rw [acknowledge_none room, room]
    rfl
  · have stands : t.acked.reports.overflow = true := overflow
    rw [acknowledge_overflow overflow, judgeResumption_waits (s := t.acked) many, stands, overflow]
    rfl
  · have ended : t.acked.resumed.reports.overflow = false := rfl
    rw [acknowledge_overflow overflow, judgeResumption_resumes (s := t.acked) few, ended, overflow]
    rfl

/-! ### ATTN -/

theorem attn_iff (s : State) :
    s.attn = true ↔ s.control.policy.qatt ≤ s.reports.queue.length ∨ s.reports.overflow = true := by
  simp only [State.attn, Bool.or_eq_true, decide_eq_true_eq]

/-- After a reset the queue is empty, and the factory Qatt is above that (R141, R169). -/
theorem resetTo_attn (c : ResetCause) (baud : Bool) (s : State) : (resetTo c baud s).attn = false := rfl

/-- Settles O40: the removal is judged for resumption, and so is the acknowledgement. -/
theorem fetchResumptionAndAttn : Obligations.FetchResumptionAndAttn := by
  refine ⟨fun b s t carried served => ?_, ackgap_requests, attn_iff, fun baud s =>
    ⟨⟨_, rfl, resetTo_attn .power baud s⟩, ⟨_, rfl, resetTo_attn .pin baud s⟩, fun reply line owed =>
      ⟨_, exec_replyEnd_reset baud line owed, resetTo_attn .request baud s⟩⟩⟩
  intro n got rest reply
  have run := fetch_requests b s t carried served
  refine ⟨fun lasts => ?_, fun overflow acknowledged few => ?_⟩
  · rw [run, fetchState_removes lasts]
    rfl
  · rw [run, fetchState_resumes overflow acknowledged few]
    have level : ((t.dropped n).resumed.reports.queue).length = rest.length + 1 := List.length_append
    rw [level]
    rfl

end Sys2Proof.Machine
end

section
/-! SUPPORT. STORE, the completion of its write, and a fall of KEY (R164, R177, R178). -/

namespace Sys2Proof.Machine

/-! ### STORE -/

theorem exec_store {key : Bool} {fields : List Byte} {s t : State}
    (carried : Carried (0x0B :: fields) (sampleKey key s) t) (managed : t.control.mode = .managed) :
    exec (.store key fields) s = .next (sendReply 0x0B (doStore fields t)) :=
  congrArg Host.Outcome.next
    (request_served (k := .store) carried (by rw [managed]; exact trivial))

/-- No code above 1 names an area (R164). -/
theorem doStore_range {b : Byte} (high : 1 < b.toNat) (t : State) : doStore [b] t = refuse .range t := by
  have other (d : Byte) (low : d.toNat ≤ 1) : b ≠ d := by
    rintro rfl
    exact absurd high (Nat.not_lt.mpr low)
  have unnamed : AreaName.ofCode b = none := by
    rw [AreaName.ofCode, if_neg (other 0 (by decide)), if_neg (other 1 (by decide))]
  simp only [doStore, unnamed]

theorem doStore_named (a : AreaName) (t : State) : doStore [a.code] t = storeArea a t := by
  cases a <;> rfl

/-- The Role area may be written with KEY high, the Policy area always (R164). -/
def AreaName.unlocked (a : AreaName) (s : State) : Prop := a = .roles → s.key = true

theorem storeArea_locked {t : State} (low : t.key = false) : storeArea .roles t = refuse .locked t :=
  if_pos ⟨rfl, low⟩

theorem storeArea_unlocked {a : AreaName} {t : State} (unlocked : a.unlocked t) :
    storeArea a t = if t.settings.write.isSome then refuse .busy t else ⟨startWrite a t, .ok, [a.code]⟩ :=
  if_neg fun ⟨roles, low⟩ => absurd (unlocked roles) (by rw [low]; decide)

theorem storeArea_busy {a : AreaName} {t : State} (unlocked : a.unlocked t) (flight : t.settings.write ≠ none) :
    storeArea a t = refuse .busy t := by
  rw [storeArea_unlocked unlocked, if_pos (Option.isSome_iff_ne_none.mpr flight)]

theorem storeArea_starts {a : AreaName} {t : State} (unlocked : a.unlocked t) (free : t.settings.write = none) :
    storeArea a t = ⟨startWrite a t, .ok, [a.code]⟩ := by
  rw [storeArea_unlocked unlocked, free]
  rfl

/-- A STORE of a named area is that area's alone. -/
theorem exec_store_area {key : Bool} {b : Byte} (a : AreaName) {s t : State}
    (carried : Carried [0x0B, b] (sampleKey key s) t) (managed : t.control.mode = .managed) (code : b = a.code) :
    exec (.store key [b]) s = .next (sendReply 0x0B (storeArea a t)) := by
  rw [exec_store carried managed, code, doStore_named]

/-! ### The completion of a write -/

/-- The read-back of an area passes exactly when the cells took the write (R177). -/
theorem cells_pass {α : Type} (checkOf : α → BitVec 16) (c : α) (took : Bool) :
    Area.passes checkOf ⟨c, checkOf c, took⟩ = took := by
  simp only [Area.passes, decide_true, Bool.and_true]

theorem writeEnds_policy {q : Policy} {image : Area Policy} {s : State} (took : Bool)
    (flight : s.settings.write = some (.policy q image)) :
    writeEnds took s =
      report (.stored .policy (readBack took))
        { s with
          settings :=
            { s.settings with
              policyArea := ⟨q, policyCheck q, took⟩, write := none, policyValidity := validityOf took } } := by
  simp only [writeEnds, flight, Area.written, cells_pass]

theorem writeEnds_roles {v : Vector Role 28} {image : Area (Vector Role 28)} {s : State} (took : Bool)
    (flight : s.settings.write = some (.roles v image)) :
    writeEnds took s =
      report (.stored .roles (readBack took))
        { s with
          settings :=
            { s.settings with
              roleArea := ⟨v, roleCheck v, took⟩, write := none, roleValidity := validityOf took } } := by
  simp only [writeEnds, flight, Area.written, cells_pass]

/-! ### A fall of KEY -/

theorem keyFalls_abandons {v : Vector Role 28} {image : Area (Vector Role 28)} {s : State}
    (flight : s.settings.write = some (.roles v image)) :
    keyFalls s =
      report (.stored .roles .abandoned)
        { s with key := false, settings := { s.settings with write := none, roleValidity := .invalid } } := by
  simp only [keyFalls, flight]

theorem keyFalls_keeps {s : State} (aside : ∀ v image, s.settings.write ≠ some (.roles v image)) :
    keyFalls s = { s with key := false } := by
  unfold keyFalls
  split
  · next v image flight => exact absurd flight (aside v image)
  · rfl

/-! ### The statement -/

/-- Settles O47: the area is named, unlocked and free before its write starts, and the write in flight says what its
completion and a fall of KEY do. -/
theorem storeWritesAnArea : Obligations.StoreWritesAnArea := by
  refine ⟨fun key b s t carried managed => ?_, fun s took => ⟨fun q image flight => ?_, fun v image flight => ?_⟩,
    fun s => ⟨fun v image flight => ?_, fun aside => congrArg _ (keyFalls_keeps aside)⟩⟩
  · have level : t.key = key := (carried_key carried).trans (sampleKey_key key s)
    have policy : AreaName.policy.unlocked t := nofun
    have roles (high : key = true) : AreaName.roles.unlocked t := fun _ => level.trans high
    refine ⟨fun high => ?_, ?_, ?_, ?_, ?_⟩
    · rw [exec_store carried managed, doStore_range high]
      rfl
    · intro code low
      rw [exec_store_area .roles carried managed code, storeArea_locked (level.trans low)]
      rfl
    · rintro (code | ⟨code, high⟩) flight
      · rw [exec_store_area .policy carried managed code, storeArea_busy policy flight]
        rfl
      · rw [exec_store_area .roles carried managed code, storeArea_busy (roles high) flight]
        rfl
    · intro code free
      rw [exec_store_area .policy carried managed code, storeArea_starts policy free]
      rfl
    · intro code high free
      rw [exec_store_area .roles carried managed code, storeArea_starts (roles high) free]
      rfl
  · refine ⟨_, rfl, frame_writeEnds took s, ?_⟩
    rw [writeEnds_policy took flight]
    exact ⟨report_settings _ _, report_reports_congr _ rfl rfl⟩
  · refine ⟨_, rfl, frame_writeEnds took s, ?_⟩
    rw [writeEnds_roles took flight]
    exact ⟨report_settings _ _, report_reports_congr _ rfl rfl⟩
  · refine ⟨_, rfl, frame_keyFalls s, ?_⟩
    rw [keyFalls_abandons flight]
    exact ⟨report_key _ _, report_settings _ _, report_reports_congr _ rfl rfl⟩

end Sys2Proof.Machine
end

section
/-! SUPPORT. A record handed to the Report Unit by the state of the queue (R168). -/

namespace Sys2Proof.Machine

/-- A report that finds the queue full is lost, the first of a new overflow (R168). -/
theorem report_full (b : ReportBody) {s : State} (clear : s.reports.overflow = false)
    (full : 64 ≤ s.reports.queue.length) :
    report b s = { s with reports := { s.reports with overflow := true, lost := 1, acknowledged := false } } := by
  rcases report_cases b s with ⟨set, _⟩ | ⟨_, room, _⟩ | ⟨_, _, dropped⟩
  · exact absurd set (by rw [clear]; decide)
  · exact absurd room (Nat.not_lt.mpr full)
  · exact dropped

/-- A report in overflow is lost too, and only counted (R168). -/
theorem report_overflowing (b : ReportBody) {s : State} (set : s.reports.overflow = true) :
    report b s = { s with reports := { s.reports with lost := min 65535 (s.reports.lost + 1) } } := by
  rcases report_cases b s with ⟨_, counted⟩ | ⟨clear, _⟩ | ⟨clear, _⟩
  · exact counted
  · exact absurd set (by rw [clear]; decide)
  · exact absurd set (by rw [clear]; decide)

/-- Settles O49: the overflow state and the level say which of R168's three rows the hand-over takes. -/
theorem reportIsAppendedOrDropped : Obligations.ReportIsAppendedOrDropped := fun _ b =>
  ⟨report_room b, report_full b, report_overflowing b⟩

end Sys2Proof.Machine
end

section
/-! SUPPORT. The two rules of `step`, one for each form of the queue (log entry 16 for the empty one). -/

namespace Sys2Proof.Machine

/-- The front command is taken from the queue before it runs. -/
theorem step_of_pending_cons {s : State} {c : Instr} {rest : List Instr} (front : s.pending = c :: rest) :
    step s = exec c { s with pending := rest } := by
  simp only [step, front]

/-- With no command waiting the block idles. -/
theorem step_of_pending_nil {s : State} (idle : s.pending = []) : step s = .next s := by
  simp only [step, idle]

/-- Settles O1: the rule of each form of the queue. -/
theorem stepRunsFrontCommand : Obligations.StepRunsFrontCommand :=
  ⟨fun _ _ _ => step_of_pending_cons rfl, fun _ => step_of_pending_nil⟩

end Sys2Proof.Machine
end
